-- ==== Sys2Proof/Word.lean ====
section
/-!
DEFINITION. The bit-vector types of the gosie_c core (spec/00_scope.md R5, R7).

Bit 0 is the least significant bit. A register, a bus value, a program word, the program counter and a data address
are all 16-bit vectors; a register number is 4 bits; the canonical immediate of a decoded instruction is 13 bits.
-/

namespace Sys2Proof

/-- A 16-bit value: register, bus value, program word, program counter, word address (R5, R7). -/
abbrev Word := BitVec 16

/-- One character byte emitted by the character-output device (R43, R63). -/
abbrev Byte := BitVec 8

/-- A general-register number, 0 to 15 (R20). -/
abbrev RegNum := BitVec 4

/-- The canonical 13-bit two's-complement immediate of the decoded record (R81). -/
abbrev Imm13 := BitVec 13

end Sys2Proof
end

