-- ==== Sys2Proof/Syntax.lean ====
section
/-!
DEFINITION. The instructions of the gosie_c core and the decoder's output record (spec/30_encoding.md R81, R89, R103).

`Instr` has one constructor for each row of spec/opcode_table.json: one for each (format, opcode) pair the decoder can
produce, the undefined numbers and forms among them, since decoding never fails (R80, R102). A constructor carries the
fields its format has; a field the format lacks decodes to 0 (R92) and is not carried. `imm13` is the canonical
sign-extended immediate, not the raw field (R81, R93); WellFormed.lean says which values a format can produce.
-/

namespace Sys2Proof

/-- The six instruction formats (R89). -/
inductive Format where
  | rr | ls | ri6 | ri8 | i11 | i12
  deriving DecidableEq, Repr

/-- The canonical decoded record (R81). -/
structure Decoded where
  format : Format
  opcode : BitVec 5
  destReg : RegNum
  srcReg : RegNum
  imm13 : Imm13
  deriving DecidableEq, Repr

/-- The decoded instructions, one constructor for each row of the opcode table, in the table's order. -/
inductive Instr where
  -- RR, register-register (R83)
  /-- NOP, RR form, opcode 0 (R140). -/
  | nop (rd rs : RegNum)
  /-- UNDEFINED_1, RR form, opcode 1 (R102). -/
  | undef1Rr (rd rs : RegNum)
  /-- ERROR, RR form, opcode 2 (R150). -/
  | error (rd rs : RegNum)
  /-- HALT, RR form, opcode 3 (R148). -/
  | halt (rd rs : RegNum)
  /-- UNDEFINED_4, RR form, opcode 4 (R102). -/
  | undef4Rr (rd rs : RegNum)
  /-- UNDEFINED_5, RR form, opcode 5 (R102). -/
  | undef5Rr (rd rs : RegNum)
  /-- MOVE, RR form, opcode 6 (R163). -/
  | moveRr (rd rs : RegNum)
  /-- UNDEFINED_7, RR form, opcode 7 (R102). -/
  | undef7Rr (rd rs : RegNum)
  /-- JUMP, RR form, opcode 8 (R143). -/
  | jumpRr (rd rs : RegNum)
  /-- IMM_RR_UNDEFINED, RR form, opcode 9 (R104). -/
  | immRr (rd rs : RegNum)
  /-- CALL, RR form, opcode 10 (R146). -/
  | callRr (rd rs : RegNum)
  /-- UNDEFINED_11, RR form, opcode 11 (R102). -/
  | undef11Rr (rd rs : RegNum)
  /-- LOAD_RR_UNDEFINED, RR form, opcode 12 (R104). -/
  | loadRr (rd rs : RegNum)
  /-- STORE_RR_UNDEFINED, RR form, opcode 13 (R104). -/
  | storeRr (rd rs : RegNum)
  /-- UNDEFINED_14, RR form, opcode 14 (R102). -/
  | undef14Rr (rd rs : RegNum)
  /-- UNDEFINED_15, RR form, opcode 15 (R102). -/
  | undef15Rr (rd rs : RegNum)
  /-- ADD, RR form, opcode 16 (R181). -/
  | addRr (rd rs : RegNum)
  /-- SUB, RR form, opcode 17 (R182). -/
  | subRr (rd rs : RegNum)
  /-- UNDEFINED_18, RR form, opcode 18 (R102). -/
  | undef18Rr (rd rs : RegNum)
  /-- UNDEFINED_19, RR form, opcode 19 (R102). -/
  | undef19Rr (rd rs : RegNum)
  /-- XOR, RR form, opcode 20 (R183). -/
  | xorRr (rd rs : RegNum)
  /-- AND, RR form, opcode 21 (R184). -/
  | andRr (rd rs : RegNum)
  /-- OR, RR form, opcode 22 (R185). -/
  | orRr (rd rs : RegNum)
  /-- SHL, RR form, opcode 23 (R186). -/
  | shlRr (rd rs : RegNum)
  /-- SHR, RR form, opcode 24 (R187). -/
  | shrRr (rd rs : RegNum)
  /-- ASR, RR form, opcode 25 (R188). -/
  | asrRr (rd rs : RegNum)
  /-- IF.EQ, RR form, opcode 26 (R201). -/
  | ifEqRr (rd rs : RegNum)
  /-- IF.NE, RR form, opcode 27 (R202). -/
  | ifNeRr (rd rs : RegNum)
  /-- IF.LT, RR form, opcode 28 (R203). -/
  | ifLtRr (rd rs : RegNum)
  /-- IF.GE, RR form, opcode 29 (R204). -/
  | ifGeRr (rd rs : RegNum)
  /-- IF.ULT, RR form, opcode 30 (R205). -/
  | ifUltRr (rd rs : RegNum)
  /-- IF.UGE, RR form, opcode 31 (R206). -/
  | ifUgeRr (rd rs : RegNum)
  -- LS, load-store: base register and 4-bit offset (R84)
  /-- LOAD, LS form, opcode 12 (R170). -/
  | load (rd rs : RegNum) (imm13 : Imm13)
  /-- STORE, LS form, opcode 13 (R171). -/
  | store (rd rs : RegNum) (imm13 : Imm13)
  /-- UNDEFINED_14, LS form, opcode 14 (R102). -/
  | undef14Ls (rd rs : RegNum) (imm13 : Imm13)
  /-- UNDEFINED_15, LS form, opcode 15 (R102). -/
  | undef15Ls (rd rs : RegNum) (imm13 : Imm13)
  -- RI6, short register-immediate (R85)
  /-- ADD, RI6 form, opcode 16 (R181). -/
  | addRi (rd : RegNum) (imm13 : Imm13)
  /-- SUB, RI6 form, opcode 17 (R182). -/
  | subRi (rd : RegNum) (imm13 : Imm13)
  /-- UNDEFINED_18, RI6 form, opcode 18 (R102). -/
  | undef18Ri (rd : RegNum) (imm13 : Imm13)
  /-- UNDEFINED_19, RI6 form, opcode 19 (R102). -/
  | undef19Ri (rd : RegNum) (imm13 : Imm13)
  /-- XOR, RI6 form, opcode 20 (R183). -/
  | xorRi (rd : RegNum) (imm13 : Imm13)
  /-- AND, RI6 form, opcode 21 (R184). -/
  | andRi (rd : RegNum) (imm13 : Imm13)
  /-- OR, RI6 form, opcode 22 (R185). -/
  | orRi (rd : RegNum) (imm13 : Imm13)
  /-- SHL, RI6 form, opcode 23 (R186). -/
  | shlRi (rd : RegNum) (imm13 : Imm13)
  /-- SHR, RI6 form, opcode 24 (R187). -/
  | shrRi (rd : RegNum) (imm13 : Imm13)
  /-- ASR, RI6 form, opcode 25 (R188). -/
  | asrRi (rd : RegNum) (imm13 : Imm13)
  /-- IF.EQ, RI6 form, opcode 26 (R201). -/
  | ifEqRi (rd : RegNum) (imm13 : Imm13)
  /-- IF.NE, RI6 form, opcode 27 (R202). -/
  | ifNeRi (rd : RegNum) (imm13 : Imm13)
  /-- IF.LT, RI6 form, opcode 28 (R203). -/
  | ifLtRi (rd : RegNum) (imm13 : Imm13)
  /-- IF.GE, RI6 form, opcode 29 (R204). -/
  | ifGeRi (rd : RegNum) (imm13 : Imm13)
  /-- IF.ULT, RI6 form, opcode 30 (R205). -/
  | ifUltRi (rd : RegNum) (imm13 : Imm13)
  /-- IF.UGE, RI6 form, opcode 31 (R206). -/
  | ifUgeRi (rd : RegNum) (imm13 : Imm13)
  -- RI8, byte immediate (R86)
  /-- MOVE, RI8 form, opcode 6 (R163). -/
  | moveRi (rd : RegNum) (imm13 : Imm13)
  /-- UNDEFINED_7, RI8 form, opcode 7 (R102). -/
  | undef7Ri (rd : RegNum) (imm13 : Imm13)
  -- I11, 11-bit control immediate (R87)
  /-- JUMP, I11 form, opcode 8 (R143). -/
  | jumpImm (imm13 : Imm13)
  /-- CALL, I11 form, opcode 10 (R146). -/
  | callImm (imm13 : Imm13)
  -- I12, 12-bit general immediate (R88)
  /-- IMM, I12 form, opcode 9 (R160). -/
  | imm (imm13 : Imm13)
  deriving DecidableEq, Repr

end Sys2Proof
end

