-- ==== Sys2Proof/WellFormed.lean ====
section
/-!
DEFINITION. Which instructions a word can stand for (spec/30_encoding.md R93, R96, R97).

The register fields are 4 bits wide by type. The one thing to check is that the canonical immediate lies in the range
its format's field can produce; the machine itself gives every value a meaning.
-/

namespace Sys2Proof

/-- A 4-bit zero-extended field: 0 to 15 (R84). -/
def fitsOffset4 (imm13 : Imm13) : Bool := decide (imm13.toNat < 16)

/-- An `n`-bit sign-extended field: -2^(n-1) to 2^(n-1) - 1 (R94, R97). -/
def fitsSigned (n : Nat) (imm13 : Imm13) : Bool :=
  decide (-(2 ^ (n - 1) : Int) ≤ imm13.toInt) && decide (imm13.toInt < (2 ^ (n - 1) : Int))

/-- The immediate, if the format has one, is one the format's field can produce (R97). -/
def Instr.wellFormed : Instr → Bool
  | .nop _ _ | .undef1Rr _ _ | .error _ _ | .halt _ _ | .undef4Rr _ _ | .undef5Rr _ _ | .moveRr _ _
  | .undef7Rr _ _ | .jumpRr _ _ | .immRr _ _ | .callRr _ _ | .undef11Rr _ _ | .loadRr _ _ | .storeRr _ _
  | .undef14Rr _ _ | .undef15Rr _ _ | .addRr _ _ | .subRr _ _ | .undef18Rr _ _ | .undef19Rr _ _ | .xorRr _ _
  | .andRr _ _ | .orRr _ _ | .shlRr _ _ | .shrRr _ _ | .asrRr _ _ | .ifEqRr _ _ | .ifNeRr _ _ | .ifLtRr _ _
  | .ifGeRr _ _ | .ifUltRr _ _ | .ifUgeRr _ _ => true
  | .load _ _ imm13 | .store _ _ imm13 | .undef14Ls _ _ imm13 | .undef15Ls _ _ imm13 => fitsOffset4 imm13
  | .addRi _ imm13 | .subRi _ imm13 | .undef18Ri _ imm13 | .undef19Ri _ imm13 | .xorRi _ imm13 | .andRi _ imm13
  | .orRi _ imm13 | .shlRi _ imm13 | .shrRi _ imm13 | .asrRi _ imm13 | .ifEqRi _ imm13 | .ifNeRi _ imm13
  | .ifLtRi _ imm13 | .ifGeRi _ imm13 | .ifUltRi _ imm13 | .ifUgeRi _ imm13 => fitsSigned 6 imm13
  | .moveRi _ imm13 | .undef7Ri _ imm13 => fitsSigned 8 imm13
  | .jumpImm imm13 | .callImm imm13 => fitsSigned 11 imm13
  | .imm imm13 => fitsSigned 12 imm13

end Sys2Proof
end

