-- ==== Sys2Proof/Decode.lean ====
section
/-!
DEFINITION. The decoder, total on every word, and its inverse, the encoder (spec/30_encoding.md).

The source gives no bit position, discriminator value or opcode number: all of them are the spec's own decisions D1 to
D8 (log 6). They are the parameter record `ENC` of R6 and stand in the first three blocks below, the only numbers of
the encoding; no meaning names one. `decodeRecord` is R90 as written; `Decoded.toInstr` names the row of the opcode
table that a record stands for.
-/

namespace Sys2Proof

/-! ### ENC: discriminator values (R82, D1) -/

def discRr : BitVec 2 := 0b00#2
def discLs : BitVec 2 := 0b01#2
def discRi6 : BitVec 2 := 0b10#2
def discRi8 : BitVec 3 := 0b011#3
def discI11 : BitVec 4 := 0b0111#4
def discI12 : BitVec 4 := 0b1111#4

/-! ### ENC: opcode numbers of the flat 5-bit opcode space (R100, D3) -/

def Opc.nop : BitVec 5 := 0#5
def Opc.undef1 : BitVec 5 := 1#5
def Opc.error : BitVec 5 := 2#5
def Opc.halt : BitVec 5 := 3#5
def Opc.undef4 : BitVec 5 := 4#5
def Opc.undef5 : BitVec 5 := 5#5
def Opc.move : BitVec 5 := 6#5
def Opc.undef7 : BitVec 5 := 7#5
def Opc.jump : BitVec 5 := 8#5
def Opc.imm : BitVec 5 := 9#5
def Opc.call : BitVec 5 := 10#5
def Opc.undef11 : BitVec 5 := 11#5
def Opc.load : BitVec 5 := 12#5
def Opc.store : BitVec 5 := 13#5
def Opc.undef14 : BitVec 5 := 14#5
def Opc.undef15 : BitVec 5 := 15#5
def Opc.add : BitVec 5 := 16#5
def Opc.sub : BitVec 5 := 17#5
def Opc.undef18 : BitVec 5 := 18#5
def Opc.undef19 : BitVec 5 := 19#5
def Opc.xor : BitVec 5 := 20#5
def Opc.and : BitVec 5 := 21#5
def Opc.or : BitVec 5 := 22#5
def Opc.shl : BitVec 5 := 23#5
def Opc.shr : BitVec 5 := 24#5
def Opc.asr : BitVec 5 := 25#5
def Opc.ifEq : BitVec 5 := 26#5
def Opc.ifNe : BitVec 5 := 27#5
def Opc.ifLt : BitVec 5 := 28#5
def Opc.ifGe : BitVec 5 := 29#5
def Opc.ifUlt : BitVec 5 := 30#5
def Opc.ifUge : BitVec 5 := 31#5

/-! ### ENC: base opcodes that a format's sub-field is OR-ed into (R91, D4) -/

def baseLs : BitVec 5 := 0b01100#5
def baseRi6 : BitVec 5 := 0b10000#5
def baseRi8 : BitVec 5 := 0b00110#5
def baseI11 : BitVec 5 := 0b01000#5

/-! ### Fields of a word (R83 to R88, D2) -/

def fieldRd (w : Word) : RegNum := w.extractLsb' 12 4
def fieldRs (w : Word) : RegNum := w.extractLsb' 8 4
def fieldOp5 (w : Word) : BitVec 5 := w.extractLsb' 2 5
def fieldOp2 (w : Word) : BitVec 2 := w.extractLsb' 2 2
def fieldOp4 (w : Word) : BitVec 4 := w.extractLsb' 2 4
def fieldOp1Ri8 (w : Word) : BitVec 1 := w.extractLsb' 3 1
def fieldOp1I11 (w : Word) : BitVec 1 := w.extractLsb' 4 1
def fieldImm4 (w : Word) : BitVec 4 := w.extractLsb' 4 4
def fieldImm6 (w : Word) : BitVec 6 := w.extractLsb' 6 6
def fieldImm8 (w : Word) : BitVec 8 := w.extractLsb' 4 8
def fieldImm11 (w : Word) : BitVec 11 := w.extractLsb' 5 11
def fieldImm12 (w : Word) : BitVec 12 := w.extractLsb' 4 12

/-- Sign extension of an `n`-bit field into the canonical 13-bit immediate, as the source gives it: XOR with the sign-bit
mask, then subtract the mask (R94). -/
def sextField (n : Nat) (v : BitVec n) : Imm13 :=
  (v.setWidth 13 ^^^ BitVec.twoPow 13 (n - 1)) - BitVec.twoPow 13 (n - 1)

/-- Zero extension of the load-store offset (R84, D5; log 8). -/
def zextField (v : BitVec 4) : Imm13 := v.setWidth 13

/-! ### The decoder (R82, R90) -/

/-- The format of a word: the low 2 bits, then the low 3, then the low 4 (R82). -/
def formatOfWord (w : Word) : Format :=
  if w.extractLsb' 0 2 = discRr then .rr
  else if w.extractLsb' 0 2 = discLs then .ls
  else if w.extractLsb' 0 2 = discRi6 then .ri6
  else if w.extractLsb' 0 3 = discRi8 then .ri8
  else if w.extractLsb' 0 4 = discI11 then .i11
  else .i12

/-- The canonical record of a word (R90). Fields a format lacks are 0 (R92, D6; log 7). -/
def decodeRecord (w : Word) : Decoded :=
  match formatOfWord w with
  | .rr => ⟨.rr, fieldOp5 w, fieldRd w, fieldRs w, 0⟩
  | .ls => ⟨.ls, baseLs ||| (fieldOp2 w).setWidth 5, fieldRd w, fieldRs w, zextField (fieldImm4 w)⟩
  | .ri6 => ⟨.ri6, baseRi6 ||| (fieldOp4 w).setWidth 5, fieldRd w, 0, sextField 6 (fieldImm6 w)⟩
  | .ri8 => ⟨.ri8, baseRi8 ||| (fieldOp1Ri8 w).setWidth 5, fieldRd w, 0, sextField 8 (fieldImm8 w)⟩
  | .i11 => ⟨.i11, baseI11 ||| ((fieldOp1I11 w).setWidth 5 <<< 1), 0, 0, sextField 11 (fieldImm11 w)⟩
  | .i12 => ⟨.i12, Opc.imm, 0, 0, sextField 12 (fieldImm12 w)⟩

/-- The RR rows: every opcode number 0 to 31 (R83, R103). -/
def instrOfRr (op : BitVec 5) (rd rs : RegNum) : Instr :=
  if op = Opc.nop then .nop rd rs
  else if op = Opc.undef1 then .undef1Rr rd rs
  else if op = Opc.error then .error rd rs
  else if op = Opc.halt then .halt rd rs
  else if op = Opc.undef4 then .undef4Rr rd rs
  else if op = Opc.undef5 then .undef5Rr rd rs
  else if op = Opc.move then .moveRr rd rs
  else if op = Opc.undef7 then .undef7Rr rd rs
  else if op = Opc.jump then .jumpRr rd rs
  else if op = Opc.imm then .immRr rd rs
  else if op = Opc.call then .callRr rd rs
  else if op = Opc.undef11 then .undef11Rr rd rs
  else if op = Opc.load then .loadRr rd rs
  else if op = Opc.store then .storeRr rd rs
  else if op = Opc.undef14 then .undef14Rr rd rs
  else if op = Opc.undef15 then .undef15Rr rd rs
  else if op = Opc.add then .addRr rd rs
  else if op = Opc.sub then .subRr rd rs
  else if op = Opc.undef18 then .undef18Rr rd rs
  else if op = Opc.undef19 then .undef19Rr rd rs
  else if op = Opc.xor then .xorRr rd rs
  else if op = Opc.and then .andRr rd rs
  else if op = Opc.or then .orRr rd rs
  else if op = Opc.shl then .shlRr rd rs
  else if op = Opc.shr then .shrRr rd rs
  else if op = Opc.asr then .asrRr rd rs
  else if op = Opc.ifEq then .ifEqRr rd rs
  else if op = Opc.ifNe then .ifNeRr rd rs
  else if op = Opc.ifLt then .ifLtRr rd rs
  else if op = Opc.ifGe then .ifGeRr rd rs
  else if op = Opc.ifUlt then .ifUltRr rd rs
  else .ifUgeRr rd rs

/-- The LS rows: opcodes 12 to 15 (R84, R103). -/
def instrOfLs (op : BitVec 5) (rd rs : RegNum) (imm13 : Imm13) : Instr :=
  if op = Opc.load then .load rd rs imm13
  else if op = Opc.store then .store rd rs imm13
  else if op = Opc.undef14 then .undef14Ls rd rs imm13
  else .undef15Ls rd rs imm13

/-- The RI6 rows: opcodes 16 to 31 (R85, R103). -/
def instrOfRi6 (op : BitVec 5) (rd : RegNum) (imm13 : Imm13) : Instr :=
  if op = Opc.add then .addRi rd imm13
  else if op = Opc.sub then .subRi rd imm13
  else if op = Opc.undef18 then .undef18Ri rd imm13
  else if op = Opc.undef19 then .undef19Ri rd imm13
  else if op = Opc.xor then .xorRi rd imm13
  else if op = Opc.and then .andRi rd imm13
  else if op = Opc.or then .orRi rd imm13
  else if op = Opc.shl then .shlRi rd imm13
  else if op = Opc.shr then .shrRi rd imm13
  else if op = Opc.asr then .asrRi rd imm13
  else if op = Opc.ifEq then .ifEqRi rd imm13
  else if op = Opc.ifNe then .ifNeRi rd imm13
  else if op = Opc.ifLt then .ifLtRi rd imm13
  else if op = Opc.ifGe then .ifGeRi rd imm13
  else if op = Opc.ifUlt then .ifUltRi rd imm13
  else .ifUgeRi rd imm13

/-- The RI8 rows: opcodes 6 and 7 (R86, R103). -/
def instrOfRi8 (op : BitVec 5) (rd : RegNum) (imm13 : Imm13) : Instr :=
  if op = Opc.move then .moveRi rd imm13
  else .undef7Ri rd imm13

/-- The I11 rows: opcodes 8 and 10 (R87, R103). -/
def instrOfI11 (op : BitVec 5) (imm13 : Imm13) : Instr :=
  if op = Opc.jump then .jumpImm imm13
  else .callImm imm13

/-- The row of the opcode table that a record stands for (R103). A record whose opcode its format cannot carry is none
the decoder produces. -/
def Decoded.toInstr (d : Decoded) : Instr :=
  match d.format with
  | .rr => instrOfRr d.opcode d.destReg d.srcReg
  | .ls => instrOfLs d.opcode d.destReg d.srcReg d.imm13
  | .ri6 => instrOfRi6 d.opcode d.destReg d.imm13
  | .ri8 => instrOfRi8 d.opcode d.destReg d.imm13
  | .i11 => instrOfI11 d.opcode d.imm13
  | .i12 => .imm d.imm13

/-- The decoder: pure, total, one instruction for every 16-bit pattern (R80). -/
def decode (w : Word) : Instr := (decodeRecord w).toInstr

/-- Why no instruction is read. Raised by `decodeWords` alone; the step never meets it (every program slot holds a word,
R40), so it is safe. -/
inductive DecodeReject where
  /-- There is no word to decode. -/
  | noWord
  deriving DecidableEq, Repr

/-- The first instruction of a list of words, and the words after it: every instruction is one word (R106). -/
def decodeWords : List Word → Except DecodeReject (Instr × List Word)
  | [] => .error .noWord
  | w :: ws => .ok (decode w, ws)

/-- The instruction the decoder reads from the `nbits` low bits of `w`; no instruction has more than 16 bits (R106;
log 26). -/
def decodeTableWord (nbits w : Nat) : Option Instr :=
  if nbits ≤ 16 then
    match decodeWords [BitVec.ofNat 16 (w % 2 ^ nbits)] with
    | .ok (i, _) => some i
    | .error _ => none
  else none

/-! ### The record of an instruction, and the encoder (R81, R110) -/

/-- The canonical record that an instruction stands for (R81, R92). -/
def Instr.record : Instr → Decoded
  | .nop rd rs => ⟨.rr, Opc.nop, rd, rs, 0⟩
  | .undef1Rr rd rs => ⟨.rr, Opc.undef1, rd, rs, 0⟩
  | .error rd rs => ⟨.rr, Opc.error, rd, rs, 0⟩
  | .halt rd rs => ⟨.rr, Opc.halt, rd, rs, 0⟩
  | .undef4Rr rd rs => ⟨.rr, Opc.undef4, rd, rs, 0⟩
  | .undef5Rr rd rs => ⟨.rr, Opc.undef5, rd, rs, 0⟩
  | .moveRr rd rs => ⟨.rr, Opc.move, rd, rs, 0⟩
  | .undef7Rr rd rs => ⟨.rr, Opc.undef7, rd, rs, 0⟩
  | .jumpRr rd rs => ⟨.rr, Opc.jump, rd, rs, 0⟩
  | .immRr rd rs => ⟨.rr, Opc.imm, rd, rs, 0⟩
  | .callRr rd rs => ⟨.rr, Opc.call, rd, rs, 0⟩
  | .undef11Rr rd rs => ⟨.rr, Opc.undef11, rd, rs, 0⟩
  | .loadRr rd rs => ⟨.rr, Opc.load, rd, rs, 0⟩
  | .storeRr rd rs => ⟨.rr, Opc.store, rd, rs, 0⟩
  | .undef14Rr rd rs => ⟨.rr, Opc.undef14, rd, rs, 0⟩
  | .undef15Rr rd rs => ⟨.rr, Opc.undef15, rd, rs, 0⟩
  | .addRr rd rs => ⟨.rr, Opc.add, rd, rs, 0⟩
  | .subRr rd rs => ⟨.rr, Opc.sub, rd, rs, 0⟩
  | .undef18Rr rd rs => ⟨.rr, Opc.undef18, rd, rs, 0⟩
  | .undef19Rr rd rs => ⟨.rr, Opc.undef19, rd, rs, 0⟩
  | .xorRr rd rs => ⟨.rr, Opc.xor, rd, rs, 0⟩
  | .andRr rd rs => ⟨.rr, Opc.and, rd, rs, 0⟩
  | .orRr rd rs => ⟨.rr, Opc.or, rd, rs, 0⟩
  | .shlRr rd rs => ⟨.rr, Opc.shl, rd, rs, 0⟩
  | .shrRr rd rs => ⟨.rr, Opc.shr, rd, rs, 0⟩
  | .asrRr rd rs => ⟨.rr, Opc.asr, rd, rs, 0⟩
  | .ifEqRr rd rs => ⟨.rr, Opc.ifEq, rd, rs, 0⟩
  | .ifNeRr rd rs => ⟨.rr, Opc.ifNe, rd, rs, 0⟩
  | .ifLtRr rd rs => ⟨.rr, Opc.ifLt, rd, rs, 0⟩
  | .ifGeRr rd rs => ⟨.rr, Opc.ifGe, rd, rs, 0⟩
  | .ifUltRr rd rs => ⟨.rr, Opc.ifUlt, rd, rs, 0⟩
  | .ifUgeRr rd rs => ⟨.rr, Opc.ifUge, rd, rs, 0⟩
  | .load rd rs imm13 => ⟨.ls, Opc.load, rd, rs, imm13⟩
  | .store rd rs imm13 => ⟨.ls, Opc.store, rd, rs, imm13⟩
  | .undef14Ls rd rs imm13 => ⟨.ls, Opc.undef14, rd, rs, imm13⟩
  | .undef15Ls rd rs imm13 => ⟨.ls, Opc.undef15, rd, rs, imm13⟩
  | .addRi rd imm13 => ⟨.ri6, Opc.add, rd, 0, imm13⟩
  | .subRi rd imm13 => ⟨.ri6, Opc.sub, rd, 0, imm13⟩
  | .undef18Ri rd imm13 => ⟨.ri6, Opc.undef18, rd, 0, imm13⟩
  | .undef19Ri rd imm13 => ⟨.ri6, Opc.undef19, rd, 0, imm13⟩
  | .xorRi rd imm13 => ⟨.ri6, Opc.xor, rd, 0, imm13⟩
  | .andRi rd imm13 => ⟨.ri6, Opc.and, rd, 0, imm13⟩
  | .orRi rd imm13 => ⟨.ri6, Opc.or, rd, 0, imm13⟩
  | .shlRi rd imm13 => ⟨.ri6, Opc.shl, rd, 0, imm13⟩
  | .shrRi rd imm13 => ⟨.ri6, Opc.shr, rd, 0, imm13⟩
  | .asrRi rd imm13 => ⟨.ri6, Opc.asr, rd, 0, imm13⟩
  | .ifEqRi rd imm13 => ⟨.ri6, Opc.ifEq, rd, 0, imm13⟩
  | .ifNeRi rd imm13 => ⟨.ri6, Opc.ifNe, rd, 0, imm13⟩
  | .ifLtRi rd imm13 => ⟨.ri6, Opc.ifLt, rd, 0, imm13⟩
  | .ifGeRi rd imm13 => ⟨.ri6, Opc.ifGe, rd, 0, imm13⟩
  | .ifUltRi rd imm13 => ⟨.ri6, Opc.ifUlt, rd, 0, imm13⟩
  | .ifUgeRi rd imm13 => ⟨.ri6, Opc.ifUge, rd, 0, imm13⟩
  | .moveRi rd imm13 => ⟨.ri8, Opc.move, rd, 0, imm13⟩
  | .undef7Ri rd imm13 => ⟨.ri8, Opc.undef7, rd, 0, imm13⟩
  | .jumpImm imm13 => ⟨.i11, Opc.jump, 0, 0, imm13⟩
  | .callImm imm13 => ⟨.i11, Opc.call, 0, 0, imm13⟩
  | .imm imm13 => ⟨.i12, Opc.imm, 0, 0, imm13⟩

/-- The format of an instruction (R89). -/
def Instr.format (i : Instr) : Format := i.record.format

/-- The 5-bit opcode number of an instruction (R100). -/
def Instr.opcode (i : Instr) : BitVec 5 := i.record.opcode

/-- RR words; the ignored bit 7 is written 0 (R83, R110). -/
def encodeRr (op : BitVec 5) (rd rs : RegNum) : Word := rd ++ rs ++ 0#1 ++ op ++ discRr

/-- LS words (R84, R110). -/
def encodeLs (op : BitVec 5) (rd rs : RegNum) (imm13 : Imm13) : Word :=
  rd ++ rs ++ imm13.extractLsb' 0 4 ++ op.extractLsb' 0 2 ++ discLs

/-- RI6 words (R85, R110). -/
def encodeRi6 (op : BitVec 5) (rd : RegNum) (imm13 : Imm13) : Word :=
  rd ++ imm13.extractLsb' 0 6 ++ op.extractLsb' 0 4 ++ discRi6

/-- RI8 words (R86, R110). -/
def encodeRi8 (op : BitVec 5) (rd : RegNum) (imm13 : Imm13) : Word :=
  rd ++ imm13.extractLsb' 0 8 ++ op.extractLsb' 0 1 ++ discRi8

/-- I11 words; bit 1 of the opcode tells JUMP from CALL (R87, R110). -/
def encodeI11 (op : BitVec 5) (imm13 : Imm13) : Word :=
  imm13.extractLsb' 0 11 ++ op.extractLsb' 1 1 ++ discI11

/-- I12 words (R88, R110). -/
def encodeI12 (imm13 : Imm13) : Word := imm13.extractLsb' 0 12 ++ discI12

/-- The word of a record, by the encoder of its format (R110). -/
def encodeRecord (d : Decoded) : Word :=
  match d.format with
  | .rr => encodeRr d.opcode d.destReg d.srcReg
  | .ls => encodeLs d.opcode d.destReg d.srcReg d.imm13
  | .ri6 => encodeRi6 d.opcode d.destReg d.imm13
  | .ri8 => encodeRi8 d.opcode d.destReg d.imm13
  | .i11 => encodeI11 d.opcode d.imm13
  | .i12 => encodeI12 d.imm13

/-- The canonical word of a well-formed instruction (R110). -/
def encode (i : Instr) : Word := encodeRecord i.record

end Sys2Proof
end

