-- ==== Sys2Proof/Config.lean ====
section
/-!
DEFINITION. What an implementation fixes and no step changes (spec/00_scope.md R6, R12).

`CR_SEQ` and `EXIT_CYCLE_LIMIT` are OPEN in the spec: they are constants without a body, so nothing can be proved of
their values. The reset parameters have the values the spec decides (D20, D21; log 3, 4, 5). The binary layout `ENC`
stands in Sys2Proof/Decode.lean and the device list in Sys2Proof/Machine/Bus.lean.
-/

namespace Sys2Proof.Config

/-- `CR_SEQ`: the bytes the character device emits for a carriage return. OPEN (R6, R63, D24; log 20). -/
opaque crSeq : List Byte

/-- An unconstrained integer from which `EXIT_CYCLE_LIMIT` is made (R6, R227, D18; log 18). -/
opaque exitCycleLimitSeed : Int

/-- `EXIT_CYCLE_LIMIT`: the exit code of a run whose cycle budget is exhausted, an OPEN nonzero integer (R6, R227, D18).
Every nonzero integer is the value for exactly one seed, and zero for none. -/
def exitCycleLimit : Int :=
  if 0 ≤ exitCycleLimitSeed then exitCycleLimitSeed + 1 else exitCycleLimitSeed

/-- `RESET_GPR`: the value of every general register at reset (R6, R24, R250, the spec's decision D20; log 4). -/
def resetGpr : Word := 0x0000#16

/-- `RESET_PC`: the slot of the first instruction (R6, R250, the spec's decision D20; log 5). -/
def resetPc : Word := 0x0000#16

/-- What a memory word that holds nothing listed reads as: `RESET_RAM` for the data space (R6, R250, the spec's decision
D21; log 3) and the all-zero word for an unloaded program slot (R40, R252). -/
def blankWord : Word := 0x0000#16

end Sys2Proof.Config
end

