-- ==== Sys2Proof/Machine/State.lean ====
section
/-!
DEFINITION. The architectural state of the gosie_c core, its faults and refusals, and the reset state
(spec/10_state.md, spec/60_exceptions.md R221 to R228, spec/70_reset_and_hazards.md R250).
-/

namespace Sys2Proof.Machine

/-- A space of 65536 words (R42, R50): the listed (address, word) pairs, strictly rising by address, none equal to
`Config.blankWord`, which is what an unlisted address reads as. The machine is word addressed and has no byte order to
observe (R51, R68), so a cell is a word (log 1). -/
abbrev Memory := List (Nat × Word)

/-- The immediate latch (R30). -/
structure Latch where
  value : Word
  valid : Bool
  expireNext : Bool
  deriving DecidableEq, Repr

/-- The cleared latch: its state at reset and after a decay (R126, R250). -/
def Latch.clear : Latch := ⟨0x0000#16, false, false⟩

/-- The machine state (10_state.md section 1). -/
structure State where
  /-- `x[0]` to `x[15]` (R20). -/
  regs : Vector Word 16
  /-- The program counter: the index of a program slot (R25). -/
  pc : Word
  /-- The skip flag, the machine's only flag (R28). -/
  skip : Bool
  /-- The immediate latch (R30). -/
  latch : Latch
  /-- Set by HALT (R33). -/
  halt : Bool
  /-- Set by ERROR (R33). -/
  error : Bool
  /-- The count of executed instructions (R34). -/
  cycle : Nat
  /-- Program memory, as the raw words that the step decodes at fetch (R40, R41; log 2). -/
  pmem : Memory
  /-- The RAM array (R42). -/
  ram : Memory
  /-- The bytes the character-output device has emitted, oldest first (R43). -/
  out : List Byte
  deriving DecidableEq, Repr

/-- The fatal causes (R221, R223, R228). A fault ends the run with no exit code (R222). -/
inductive Fault where
  /-- Raised by executing one of the nine opcode numbers with no defined behaviour (R102, R221). Safe: the spec gives
  the instruction no effect but the abort of the run. -/
  | unknownOpcode (opcode : BitVec 5) (pc : Word)
  /-- Raised by executing an RR-form IMM, LOAD or STORE (R104, R221). Safe: the spec gives the form no meaning. -/
  | undefinedForm (opcode : BitVec 5) (pc : Word)
  /-- Raised by LOAD and STORE when no device handles the transaction (R58, R223). Safe: the spec makes it fatal. -/
  | busUnhandled (address : Word) (isWrite : Bool)
  deriving DecidableEq, Repr

/-- The model's refusals. -/
inductive Refusal where
  /-- Answered by an arm of `exec` whose instruction has no meaning yet; no arm of this model answers it. Safe. -/
  | notModelled (mnemonic : String)
  deriving DecidableEq, Repr

/-- What executing an instruction answers. -/
abbrev Result := Host.Outcome State Fault Refusal

/-- The machine right after reset (R250; log 3, 4, 5). -/
def State.reset : State where
  regs := Vector.replicate 16 Config.resetGpr
  pc := Config.resetPc
  skip := false
  latch := Latch.clear
  halt := false
  error := false
  cycle := 0
  pmem := []
  ram := []
  out := []

end Sys2Proof.Machine
end

