-- ==== Sys2Proof/Machine/Memory.lean ====
section
/-!
DEFINITION. The operations over a word-addressed memory in its canonical form (spec/10_state.md R40, R42).
-/

namespace Sys2Proof.Machine

/-- The canonical form: addresses strictly rising and below 65536, and no entry equal to what an unlisted address reads
as, so that equal memories are equal data. -/
def Memory.wf : Memory → Bool
  | [] => true
  | (k, v) :: m => decide (k < 65536) && (v != Config.blankWord) && m.all (fun c => decide (k < c.1)) && Memory.wf m

/-- The word at an address; an unlisted one reads as `Config.blankWord`. -/
def Memory.read : Memory → Word → Word
  | [], _ => Config.blankWord
  | (k, v) :: m, a => if k = a.toNat then v else Memory.read m a

/-- A word put in front of a memory, unless it is what an unlisted address reads as. -/
def Memory.cell (k : Nat) (v : Word) (m : Memory) : Memory :=
  if v = Config.blankWord then m else (k, v) :: m

/-- Write one word, keeping the canonical form. -/
def Memory.write : Memory → Word → Word → Memory
  | [], a, v => Memory.cell a.toNat v []
  | (k, u) :: m, a, v =>
    if k = a.toNat then Memory.cell k v m
    else if a.toNat < k then Memory.cell a.toNat v ((k, u) :: m)
    else (k, u) :: Memory.write m a v

/-- Write a list of words to consecutive addresses from `a` (R252, R253). -/
def Memory.load : Memory → Word → List Word → Memory
  | m, _, [] => m
  | m, a, w :: ws => Memory.load (Memory.write m a w) (a + 1) ws

end Sys2Proof.Machine
end

