-- ==== Sys2Proof/Machine/Bus.lean ====
section
/-!
DEFINITION. The bus dispatcher, the two devices and the memory map (spec/20_memory.md R53 to R67).

The dispatcher is written over any device list and any device-owned storage `σ` (R64); this machine's list is `devices`,
whose devices own the fields `ram` and `out` of the state (log 22).
-/

namespace Sys2Proof.Machine

/-- A device: base address, span in words, and a handler of (storage, address, data, isWrite) that accepts with the new
storage and the returned data, or declines with `none`, changing nothing. A span is 1 to 65536 words: no other device can
be written down (R54). -/
structure Device (σ : Type) where
  base : Word
  span : Nat
  handler : σ → Word → Word → Bool → Option (σ × Word)
  spanLegal : 1 ≤ span ∧ span ≤ 65536 := by decide

/-- Why a device is refused when the machine is configured. -/
inductive DeviceRefusal where
  /-- The span is 0 or above 65536 words (R54, U15 of spec/93_implementation_defined.md; log 21). Safe. -/
  | spanOutOfRange
  deriving DecidableEq, Repr

/-- Configure a device at machine construction (R57): a span outside 1 to 65536 is refused (R54, U15; log 21). -/
def Device.configure {σ : Type} (base : Word) (span : Nat) (handler : σ → Word → Word → Bool → Option (σ × Word)) :
    Except DeviceRefusal (Device σ) :=
  if h : 1 ≤ span ∧ span ≤ 65536 then .ok ⟨base, span, handler, h⟩ else .error .spanOutOfRange

/-- The device's range matches the address, in unbounded integers (R55, D23; log 21). -/
def Device.inRange {σ : Type} (d : Device σ) (address : Word) : Bool :=
  decide (d.base.toNat ≤ address.toNat) && decide (address.toNat - d.base.toNat < d.span)

/-- The dispatcher: the first device in priority order whose range matches and whose handler accepts (R56). `none` is
the unhandled transaction (R58). -/
def transact {σ : Type} : List (Device σ) → σ → Word → Word → Bool → Option (σ × Word)
  | [], _, _, _, _ => none
  | d :: ds, st, address, data, isWrite =>
    if d.inRange address then
      match d.handler st address data isWrite with
      | some accepted => some accepted
      | none => transact ds st address data isWrite
    else transact ds st address data isWrite

/-- Replace the RAM array. -/
def State.setRam (s : State) (m : Memory) : State := { s with ram := m }

/-- Append to the output log (R43). -/
def State.emit (s : State) (bytes : List Byte) : State := { s with out := s.out ++ bytes }

/-- The base address of the RAM device (R62). -/
def ramBase : Word := 0x0000#16

/-- The RAM handler: it always accepts (R62). -/
def ramHandler (s : State) (address data : Word) (isWrite : Bool) : Option (State × Word) :=
  if isWrite then some (s.setRam (s.ram.write (address - ramBase) data), data)
  else some (s, s.ram.read (address - ramBase))

/-- RAM: 65535 words, addresses 0x0000 to 0xFFFE (R62). -/
def ramDevice : Device State where
  base := ramBase
  span := 0xFFFF
  handler := ramHandler

/-- The byte that makes the character device emit `CR_SEQ` (R63). -/
def carriageReturn : Byte := 0x0D#8

/-- What a written word makes the character device emit: its low byte, or `CR_SEQ` for a carriage return (R63, D24;
log 20). -/
def charBytes (data : Word) : List Byte :=
  if data.extractLsb' 0 8 = carriageReturn then Config.crSeq else [data.extractLsb' 0 8]

/-- The character-output handler: a write is emitted, a read is declined (R63). -/
def charOutHandler (s : State) (_address data : Word) (isWrite : Bool) : Option (State × Word) :=
  if isWrite then some (s.emit (charBytes data), data) else none

/-- Character output: one word at 0xFF00 (R63). -/
def charOutDevice : Device State where
  base := 0xFF00#16
  span := 1
  handler := charOutHandler

/-- The machine's device list, highest priority first (R64). -/
def devices : List (Device State) := [charOutDevice, ramDevice]

/-- A bus read of one word (R60); the data on entry is don't-care and passed as 0 (R53). -/
def memRead (s : State) (address : Word) : Option (State × Word) := transact devices s address 0x0000#16 false

/-- A bus write of one word (R61). -/
def memWrite (s : State) (address data : Word) : Option (State × Word) := transact devices s address data true

end Sys2Proof.Machine
end

