-- ==== Sys2Proof/Machine/Ops.lean ====
section
/-!
DEFINITION. The named operations every meaning is built from: register access, fetch, raising a fatal fault, the
memory access primitives, and items 4 to 6 of the step (spec/40_step_and_operand.md R123 to R129).
-/

namespace Sys2Proof.Machine

/-! ### Registers (R20, R23) -/

/-- `x[r]`. -/
def State.reg (s : State) (r : RegNum) : Word := s.regs[r.toNat]'(r.isLt)

/-- `x[r] <- v`. -/
def State.setReg (s : State) (r : RegNum) (v : Word) : State := { s with regs := s.regs.set r.toNat v r.isLt }

/-- `pc <- t`. -/
def State.setPc (s : State) (t : Word) : State := { s with pc := t }

/-- Write the skip flag (R28). -/
def State.setSkip (s : State) (b : Bool) : State := { s with skip := b }

/-- Write the immediate latch (R30). -/
def State.setLatch (s : State) (l : Latch) : State := { s with latch := l }

/-- Set the halt signal (R33). -/
def State.setHalt (s : State) : State := { s with halt := true }

/-- Set the error signal (R33). -/
def State.setError (s : State) : State := { s with error := true }

/-! ### Fetch (R123 item 1) -/

/-- The instruction in a slot of program memory: decoding at fetch is indistinguishable from decoding at load (R41). -/
def State.instrAt (s : State) (slot : Word) : Instr := decode (s.pmem.read slot)

/-- The instruction at the program counter; it cannot fault (R123). -/
def State.fetch (s : State) : Instr := s.instrAt s.pc

/-! ### The fatal faults (R222) -/

/-- `raise Fatal(cause)`: the step stops, nothing is saved, no handler is entered and there is no return (R222, R231,
R232). It is the machine's one way to take an exception. -/
def raiseFatal (cause : Fault) : Result := .fault cause

/-- Executing an opcode number with no defined behaviour (R102, R221). -/
def raiseUnknownOpcode (opcode : BitVec 5) (s : State) : Result := raiseFatal (.unknownOpcode opcode s.pc)

/-- Executing an undefined RR form (R104, R221). -/
def raiseUndefinedForm (opcode : BitVec 5) (s : State) : Result := raiseFatal (.undefinedForm opcode s.pc)

/-! ### Memory access (R170, R171) -/

/-- `x[rd] <- MemRead(ea, 1)`: an unhandled read is fatal and writes no register (R60, R223). -/
def loadWord (rd : RegNum) (ea : Word) (s : State) : Result :=
  match memRead s ea with
  | some (s', v) => .next (s'.setReg rd v)
  | none => raiseFatal (.busUnhandled ea false)

/-- `MemWrite(ea, 1, v)`: an unhandled write is fatal and stores nothing (R61, R223). -/
def storeWord (ea v : Word) (s : State) : Result :=
  match memWrite s ea v with
  | some (s', _) => .next s'
  | none => raiseFatal (.busUnhandled ea true)

/-! ### Items 4, 5 and 6 of the step -/

/-- Item 4, latch decay: the latch survives the step that asked for it and is cleared at the end of any other (R126, D12;
log 11). -/
def State.decayLatch (s : State) : State :=
  if s.latch.expireNext then s.setLatch { s.latch with expireNext := false }
  else s.setLatch { s.latch with value := 0x0000#16, valid := false }

/-- The slot holds an immediate-extension instruction: the test reads the opcode number alone, so an RR word with that
number counts (R127, D13; log 12). -/
def State.isPrefixAt (s : State) (slot : Word) : Bool := (s.instrAt slot).opcode == Opc.imm

/-- Item 5, advance of the program counter and skip: past the next instruction as well if the skip flag is set, and past
one more if that next instruction is an immediate extension; the skip flag is cleared (R127, D13, D14; log 12, 13). -/
def State.advancePc (s : State) : State :=
  if s.skip then
    let skipped := s.pc + 1
    ((s.setPc (if s.isPrefixAt skipped then skipped + 1 + 1 else skipped + 1)).setSkip false)
  else s.setPc (s.pc + 1)

/-- Item 6: one executed instruction more (R128). -/
def State.countCycle (s : State) : State := { s with cycle := s.cycle + 1 }

/-- Items 4 to 6, after the instruction's own effect (R129). -/
def State.finishStep (s : State) : State := s.decayLatch.advancePc.countCycle

/-- HALT or ERROR has been executed: the run is over and no further step runs (R33, R121, R229). -/
def State.ended (s : State) : Bool := s.halt || s.error

/-- The program is loaded from outside the machine (R252): put one word into the slot that the next step fetches, and
clear the two signals that would keep it from fetching (log 25). -/
def State.placeWord (s : State) (w : Word) : State :=
  { s with pmem := s.pmem.write s.pc w, halt := false, error := false }

end Sys2Proof.Machine
end

