-- ==== Sys2Proof/Machine/Operands.lean ====
section
/-!
DEFINITION. Item 2 of the step, the operand, and the one addressing mode (spec/40_step_and_operand.md R123,
spec/43_load_store.md R172). Computing an operand has no side effect.
-/

namespace Sys2Proof.Machine

/-- The operand of a register-register instruction (R123). -/
def operandReg (s : State) (rs : RegNum) : Word := s.reg rs

/-- The operand of every immediate format: the latch's upper 12 bits with the immediate's low nibble when the latch is
valid, the sign-extended immediate otherwise (R96, R123, D10; log 10). -/
def operandImm (s : State) (imm13 : Imm13) : Word :=
  if s.latch.valid then s.latch.value.extractLsb' 4 12 ++ imm13.extractLsb' 0 4
  else imm13.signExtend 16

/-- The effective address: base register plus operand, modulo 2^16 (R172). -/
def effectiveAddress (s : State) (rs : RegNum) (imm13 : Imm13) : Word := s.reg rs + operandImm s imm13

end Sys2Proof.Machine
end

