-- ==== Sys2Proof/Machine/Alu.lean ====
section
/-!
DEFINITION. Arithmetic, bitwise and shift instructions: ADD, SUB, XOR, AND, OR, SHL, SHR, ASR (spec/44_alu.md).
All are two-address: the destination register is the left operand (R180). None touches a flag, memory or the pc.
-/

namespace Sys2Proof.Machine

/-- Shift amounts are the operand's low 4 bits, 0 to 15 (R186). -/
def shiftAmount (y : Word) : BitVec 4 := y.extractLsb' 0 4

/-- ADD's result: modulo 2^16 (R181). -/
def aluAdd (x y : Word) : Word := x + y

/-- SUB's result: destination minus operand, modulo 2^16 (R182). -/
def aluSub (x y : Word) : Word := x - y

/-- XOR's result: bit by bit (R183). -/
def aluXor (x y : Word) : Word := x ^^^ y

/-- AND's result: bit by bit (R184). -/
def aluAnd (x y : Word) : Word := x &&& y

/-- OR's result: bit by bit (R185). -/
def aluOr (x y : Word) : Word := x ||| y

/-- SHL's result: zeros enter at bit 0 (R186). -/
def aluShl (x y : Word) : Word := x <<< (shiftAmount y).toNat

/-- SHR's result: zeros enter at bit 15 (R187). -/
def aluShr (x y : Word) : Word := x >>> (shiftAmount y).toNat

/-- ASR's result: copies of bit 15 enter at bit 15 (R188, D33; log 23). -/
def aluAsr (x y : Word) : Word := x.sshiftRight (shiftAmount y).toNat

/-- `x[rd] <- x[rd] OP x[rs]` (R180). -/
def aluReg (op : Word → Word → Word) (rd rs : RegNum) (s : State) : Result :=
  .next (s.setReg rd (op (s.reg rd) (operandReg s rs)))

/-- `x[rd] <- x[rd] OP immediate` (R180). -/
def aluImm (op : Word → Word → Word) (rd : RegNum) (imm13 : Imm13) (s : State) : Result :=
  .next (s.setReg rd (op (s.reg rd) (operandImm s imm13)))

/-- ADD, register form (R181). -/
def execAddRr (rd rs : RegNum) (s : State) : Result := aluReg aluAdd rd rs s

/-- ADD, immediate form (R181). -/
def execAddRi (rd : RegNum) (imm13 : Imm13) (s : State) : Result := aluImm aluAdd rd imm13 s

/-- SUB, register form (R182). -/
def execSubRr (rd rs : RegNum) (s : State) : Result := aluReg aluSub rd rs s

/-- SUB, immediate form (R182). -/
def execSubRi (rd : RegNum) (imm13 : Imm13) (s : State) : Result := aluImm aluSub rd imm13 s

/-- XOR, register form (R183). -/
def execXorRr (rd rs : RegNum) (s : State) : Result := aluReg aluXor rd rs s

/-- XOR, immediate form (R183). -/
def execXorRi (rd : RegNum) (imm13 : Imm13) (s : State) : Result := aluImm aluXor rd imm13 s

/-- AND, register form (R184). -/
def execAndRr (rd rs : RegNum) (s : State) : Result := aluReg aluAnd rd rs s

/-- AND, immediate form (R184). -/
def execAndRi (rd : RegNum) (imm13 : Imm13) (s : State) : Result := aluImm aluAnd rd imm13 s

/-- OR, register form (R185). -/
def execOrRr (rd rs : RegNum) (s : State) : Result := aluReg aluOr rd rs s

/-- OR, immediate form (R185). -/
def execOrRi (rd : RegNum) (imm13 : Imm13) (s : State) : Result := aluImm aluOr rd imm13 s

/-- SHL, register form (R186). -/
def execShlRr (rd rs : RegNum) (s : State) : Result := aluReg aluShl rd rs s

/-- SHL, immediate form (R186). -/
def execShlRi (rd : RegNum) (imm13 : Imm13) (s : State) : Result := aluImm aluShl rd imm13 s

/-- SHR, register form (R187). -/
def execShrRr (rd rs : RegNum) (s : State) : Result := aluReg aluShr rd rs s

/-- SHR, immediate form (R187). -/
def execShrRi (rd : RegNum) (imm13 : Imm13) (s : State) : Result := aluImm aluShr rd imm13 s

/-- ASR, register form (R188). -/
def execAsrRr (rd rs : RegNum) (s : State) : Result := aluReg aluAsr rd rs s

/-- ASR, immediate form (R188). -/
def execAsrRi (rd : RegNum) (imm13 : Imm13) (s : State) : Result := aluImm aluAsr rd imm13 s

end Sys2Proof.Machine
end

