-- ==== Sys2Proof/Machine/Flags.lean ====
section
/-!
DEFINITION. The machine's one flag, `skip`, and the six predicates that set it (spec/10_state.md R28,
spec/45_compare_skip.md R200 to R206). There is no carry, zero, negative or overflow flag.
-/

namespace Sys2Proof.Machine

/-- IF.EQ (R201). -/
def predEq (x y : Word) : Bool := x == y

/-- IF.NE (R202). -/
def predNe (x y : Word) : Bool := x != y

/-- IF.LT, a true signed comparison (R203). -/
def predLt (x y : Word) : Bool := x.slt y

/-- IF.GE, the negation of IF.LT (R204). -/
def predGe (x y : Word) : Bool := !(x.slt y)

/-- IF.ULT (R205). -/
def predUlt (x y : Word) : Bool := x.ult y

/-- IF.UGE, the negation of IF.ULT (R206). -/
def predUge (x y : Word) : Bool := !(x.ult y)

/-- A compare sets `skip` when its predicate fails and does nothing when it holds (R200). -/
def skipUnless (holds : Bool) (s : State) : State := if holds then s else s.setSkip true

end Sys2Proof.Machine
end

