-- ==== Sys2Proof/Machine/CompareSkip.lean ====
section
/-!
DEFINITION. Comparison and skip: IF.EQ, IF.NE, IF.LT, IF.GE, IF.ULT, IF.UGE (spec/45_compare_skip.md). `x[rd]` is the
left side; a predicate that fails sets `skip`, which item 5 of the same step applies and clears (R200, R127).
-/

namespace Sys2Proof.Machine

/-- A compare against `x[rs]` (R200). -/
def compareReg (pred : Word → Word → Bool) (rd rs : RegNum) (s : State) : Result :=
  .next (skipUnless (pred (s.reg rd) (operandReg s rs)) s)

/-- A compare against an immediate (R200). -/
def compareImm (pred : Word → Word → Bool) (rd : RegNum) (imm13 : Imm13) (s : State) : Result :=
  .next (skipUnless (pred (s.reg rd) (operandImm s imm13)) s)

/-- IF.EQ, register form (R201). -/
def execIfEqRr (rd rs : RegNum) (s : State) : Result := compareReg predEq rd rs s

/-- IF.EQ, immediate form (R201). -/
def execIfEqRi (rd : RegNum) (imm13 : Imm13) (s : State) : Result := compareImm predEq rd imm13 s

/-- IF.NE, register form (R202). -/
def execIfNeRr (rd rs : RegNum) (s : State) : Result := compareReg predNe rd rs s

/-- IF.NE, immediate form (R202). -/
def execIfNeRi (rd : RegNum) (imm13 : Imm13) (s : State) : Result := compareImm predNe rd imm13 s

/-- IF.LT, register form (R203). -/
def execIfLtRr (rd rs : RegNum) (s : State) : Result := compareReg predLt rd rs s

/-- IF.LT, immediate form (R203). -/
def execIfLtRi (rd : RegNum) (imm13 : Imm13) (s : State) : Result := compareImm predLt rd imm13 s

/-- IF.GE, register form (R204). -/
def execIfGeRr (rd rs : RegNum) (s : State) : Result := compareReg predGe rd rs s

/-- IF.GE, immediate form (R204). -/
def execIfGeRi (rd : RegNum) (imm13 : Imm13) (s : State) : Result := compareImm predGe rd imm13 s

/-- IF.ULT, register form (R205). -/
def execIfUltRr (rd rs : RegNum) (s : State) : Result := compareReg predUlt rd rs s

/-- IF.ULT, immediate form (R205). -/
def execIfUltRi (rd : RegNum) (imm13 : Imm13) (s : State) : Result := compareImm predUlt rd imm13 s

/-- IF.UGE, register form (R206). -/
def execIfUgeRr (rd rs : RegNum) (s : State) : Result := compareReg predUge rd rs s

/-- IF.UGE, immediate form (R206). -/
def execIfUgeRi (rd : RegNum) (imm13 : Imm13) (s : State) : Result := compareImm predUge rd imm13 s

end Sys2Proof.Machine
end

