-- ==== Sys2Proof/Machine/Control.lean ====
section
/-!
DEFINITION. Control instructions: NOP, JUMP, CALL, HALT, ERROR (spec/41_control.md). Each meaning is item 3 of the step;
the ordinary advance of the program counter follows in item 5 even after a transfer (R26, R127).
-/

namespace Sys2Proof.Machine

/-- CALL's link: `x[0]` receives the address of the CALL itself, then `pc` the target, which was computed before `x[0]`
is written (R146, R23, D15; log 14). -/
def linkAndGo (target : Word) (s : State) : State := (s.setReg 0 s.pc).setPc target

/-- NOP: nothing; the `rd` and `rs` fields are ignored (R140). -/
def execNop (_rd _rs : RegNum) (s : State) : Result := .next s

/-- JUMP, register form: `pc <- x[rs]`; `rd` is ignored (R143). -/
def execJumpRr (_rd rs : RegNum) (s : State) : Result := .next (s.setPc (operandReg s rs))

/-- JUMP, immediate form: `pc <- pc + offset` (R143, D14; log 13). -/
def execJumpImm (imm13 : Imm13) (s : State) : Result := .next (s.setPc (s.pc + operandImm s imm13))

/-- CALL, register form (R146). -/
def execCallRr (_rd rs : RegNum) (s : State) : Result := .next (linkAndGo (operandReg s rs) s)

/-- CALL, immediate form (R146). -/
def execCallImm (imm13 : Imm13) (s : State) : Result := .next (linkAndGo (s.pc + operandImm s imm13) s)

/-- HALT: `halt <- 1`; the run loop then ends with exit code 0 (R148, R224). -/
def execHalt (_rd _rs : RegNum) (s : State) : Result := .next s.setHalt

/-- ERROR: `error <- 1`; the run loop then ends with the exit code of `x[1]` (R150, R225; log 17). -/
def execError (_rd _rs : RegNum) (s : State) : Result := .next s.setError

end Sys2Proof.Machine
end

