-- ==== Sys2Proof/Machine/DataMove.lean ====
section
/-!
DEFINITION. Immediate extension and data movement: IMM, MOVE (spec/42_imm_and_move.md).
-/

namespace Sys2Proof.Machine

/-- IMM: the latch takes the instruction's own 12-bit field shifted left by 4, becomes valid and asks to survive this
step's decay (R160, D11; log 10). -/
def execImm (imm13 : Imm13) (s : State) : Result := .next (s.setLatch ⟨imm13.signExtend 16 <<< 4, true, true⟩)

/-- MOVE, register form: `x[rd] <- x[rs]` (R163). -/
def execMoveRr (rd rs : RegNum) (s : State) : Result := .next (s.setReg rd (operandReg s rs))

/-- MOVE, immediate form: `x[rd] <- operand` (R163). -/
def execMoveRi (rd : RegNum) (imm13 : Imm13) (s : State) : Result := .next (s.setReg rd (operandImm s imm13))

end Sys2Proof.Machine
end

