-- ==== Sys2Proof/Machine/LoadStore.lean ====
section
/-!
DEFINITION. Memory access: LOAD, STORE (spec/43_load_store.md).
-/

namespace Sys2Proof.Machine

/-- LOAD: `x[rd] <- MemRead(EA, 1)`; the base is read before `x[rd]` is written (R170). -/
def execLoad (rd rs : RegNum) (imm13 : Imm13) (s : State) : Result := loadWord rd (effectiveAddress s rs imm13) s

/-- STORE: `MemWrite(EA, 1, x[rd])`; `rd` is the data register (R171). -/
def execStore (rd rs : RegNum) (imm13 : Imm13) (s : State) : Result :=
  storeWord (effectiveAddress s rs imm13) (s.reg rd) s

end Sys2Proof.Machine
end

