-- ==== Sys2Proof/Machine/Undefined.lean ====
section
/-!
DEFINITION. The undefined opcode numbers and the undefined forms (spec/30_encoding.md R102, R104, spec/60_exceptions.md
R221). They decode, may sit in program memory and may be skipped; executing one is fatal, before any state changes.
-/

namespace Sys2Proof.Machine

/-- Opcode 1 in RR form: no defined behaviour (R102). -/
def execUndef1Rr (_rd _rs : RegNum) (s : State) : Result := raiseUnknownOpcode Opc.undef1 s

/-- Opcode 4 in RR form: no defined behaviour (R102). -/
def execUndef4Rr (_rd _rs : RegNum) (s : State) : Result := raiseUnknownOpcode Opc.undef4 s

/-- Opcode 5 in RR form: no defined behaviour (R102). -/
def execUndef5Rr (_rd _rs : RegNum) (s : State) : Result := raiseUnknownOpcode Opc.undef5 s

/-- Opcode 7 in RR form: no defined behaviour (R102). -/
def execUndef7Rr (_rd _rs : RegNum) (s : State) : Result := raiseUnknownOpcode Opc.undef7 s

/-- RR-form opcode 9 (IMM): an undefined form (R104, D9; log 9). -/
def execImmRr (_rd _rs : RegNum) (s : State) : Result := raiseUndefinedForm Opc.imm s

/-- Opcode 11 in RR form: no defined behaviour (R102). -/
def execUndef11Rr (_rd _rs : RegNum) (s : State) : Result := raiseUnknownOpcode Opc.undef11 s

/-- RR-form opcode 12 (LOAD): an undefined form (R104, D9; log 9). -/
def execLoadRr (_rd _rs : RegNum) (s : State) : Result := raiseUndefinedForm Opc.load s

/-- RR-form opcode 13 (STORE): an undefined form (R104, D9; log 9). -/
def execStoreRr (_rd _rs : RegNum) (s : State) : Result := raiseUndefinedForm Opc.store s

/-- Opcode 14 in RR form: no defined behaviour (R102). -/
def execUndef14Rr (_rd _rs : RegNum) (s : State) : Result := raiseUnknownOpcode Opc.undef14 s

/-- Opcode 15 in RR form: no defined behaviour (R102). -/
def execUndef15Rr (_rd _rs : RegNum) (s : State) : Result := raiseUnknownOpcode Opc.undef15 s

/-- Opcode 18 in RR form: no defined behaviour (R102). -/
def execUndef18Rr (_rd _rs : RegNum) (s : State) : Result := raiseUnknownOpcode Opc.undef18 s

/-- Opcode 19 in RR form: no defined behaviour (R102). -/
def execUndef19Rr (_rd _rs : RegNum) (s : State) : Result := raiseUnknownOpcode Opc.undef19 s

/-- Opcode 14 in LS form: no defined behaviour (R102). -/
def execUndef14Ls (_rd _rs : RegNum) (_imm13 : Imm13) (s : State) : Result := raiseUnknownOpcode Opc.undef14 s

/-- Opcode 15 in LS form: no defined behaviour (R102). -/
def execUndef15Ls (_rd _rs : RegNum) (_imm13 : Imm13) (s : State) : Result := raiseUnknownOpcode Opc.undef15 s

/-- Opcode 18 in RI6 form: no defined behaviour (R102). -/
def execUndef18Ri (_rd : RegNum) (_imm13 : Imm13) (s : State) : Result := raiseUnknownOpcode Opc.undef18 s

/-- Opcode 19 in RI6 form: no defined behaviour (R102). -/
def execUndef19Ri (_rd : RegNum) (_imm13 : Imm13) (s : State) : Result := raiseUnknownOpcode Opc.undef19 s

/-- Opcode 7 in RI8 form: no defined behaviour (R102). -/
def execUndef7Ri (_rd : RegNum) (_imm13 : Imm13) (s : State) : Result := raiseUnknownOpcode Opc.undef7 s

end Sys2Proof.Machine
end

