-- ==== Sys2Proof/Machine/Dispatch.lean ====
section
/-!
DEFINITION. Item 3 of the step, dispatch (spec/40_step_and_operand.md R124): one arm per row of the opcode table.
-/

namespace Sys2Proof.Machine

def exec (i : Instr) (s : State) : Host.Outcome State Fault Refusal :=
  match i with
  | .nop rd rs => Sys2Proof.Machine.execNop rd rs s
  | .undef1Rr rd rs => Sys2Proof.Machine.execUndef1Rr rd rs s
  | .error rd rs => Sys2Proof.Machine.execError rd rs s
  | .halt rd rs => Sys2Proof.Machine.execHalt rd rs s
  | .undef4Rr rd rs => Sys2Proof.Machine.execUndef4Rr rd rs s
  | .undef5Rr rd rs => Sys2Proof.Machine.execUndef5Rr rd rs s
  | .moveRr rd rs => Sys2Proof.Machine.execMoveRr rd rs s
  | .undef7Rr rd rs => Sys2Proof.Machine.execUndef7Rr rd rs s
  | .jumpRr rd rs => Sys2Proof.Machine.execJumpRr rd rs s
  | .immRr rd rs => Sys2Proof.Machine.execImmRr rd rs s
  | .callRr rd rs => Sys2Proof.Machine.execCallRr rd rs s
  | .undef11Rr rd rs => Sys2Proof.Machine.execUndef11Rr rd rs s
  | .loadRr rd rs => Sys2Proof.Machine.execLoadRr rd rs s
  | .storeRr rd rs => Sys2Proof.Machine.execStoreRr rd rs s
  | .undef14Rr rd rs => Sys2Proof.Machine.execUndef14Rr rd rs s
  | .undef15Rr rd rs => Sys2Proof.Machine.execUndef15Rr rd rs s
  | .addRr rd rs => Sys2Proof.Machine.execAddRr rd rs s
  | .subRr rd rs => Sys2Proof.Machine.execSubRr rd rs s
  | .undef18Rr rd rs => Sys2Proof.Machine.execUndef18Rr rd rs s
  | .undef19Rr rd rs => Sys2Proof.Machine.execUndef19Rr rd rs s
  | .xorRr rd rs => Sys2Proof.Machine.execXorRr rd rs s
  | .andRr rd rs => Sys2Proof.Machine.execAndRr rd rs s
  | .orRr rd rs => Sys2Proof.Machine.execOrRr rd rs s
  | .shlRr rd rs => Sys2Proof.Machine.execShlRr rd rs s
  | .shrRr rd rs => Sys2Proof.Machine.execShrRr rd rs s
  | .asrRr rd rs => Sys2Proof.Machine.execAsrRr rd rs s
  | .ifEqRr rd rs => Sys2Proof.Machine.execIfEqRr rd rs s
  | .ifNeRr rd rs => Sys2Proof.Machine.execIfNeRr rd rs s
  | .ifLtRr rd rs => Sys2Proof.Machine.execIfLtRr rd rs s
  | .ifGeRr rd rs => Sys2Proof.Machine.execIfGeRr rd rs s
  | .ifUltRr rd rs => Sys2Proof.Machine.execIfUltRr rd rs s
  | .ifUgeRr rd rs => Sys2Proof.Machine.execIfUgeRr rd rs s
  | .load rd rs imm13 => Sys2Proof.Machine.execLoad rd rs imm13 s
  | .store rd rs imm13 => Sys2Proof.Machine.execStore rd rs imm13 s
  | .undef14Ls rd rs imm13 => Sys2Proof.Machine.execUndef14Ls rd rs imm13 s
  | .undef15Ls rd rs imm13 => Sys2Proof.Machine.execUndef15Ls rd rs imm13 s
  | .addRi rd imm13 => Sys2Proof.Machine.execAddRi rd imm13 s
  | .subRi rd imm13 => Sys2Proof.Machine.execSubRi rd imm13 s
  | .undef18Ri rd imm13 => Sys2Proof.Machine.execUndef18Ri rd imm13 s
  | .undef19Ri rd imm13 => Sys2Proof.Machine.execUndef19Ri rd imm13 s
  | .xorRi rd imm13 => Sys2Proof.Machine.execXorRi rd imm13 s
  | .andRi rd imm13 => Sys2Proof.Machine.execAndRi rd imm13 s
  | .orRi rd imm13 => Sys2Proof.Machine.execOrRi rd imm13 s
  | .shlRi rd imm13 => Sys2Proof.Machine.execShlRi rd imm13 s
  | .shrRi rd imm13 => Sys2Proof.Machine.execShrRi rd imm13 s
  | .asrRi rd imm13 => Sys2Proof.Machine.execAsrRi rd imm13 s
  | .ifEqRi rd imm13 => Sys2Proof.Machine.execIfEqRi rd imm13 s
  | .ifNeRi rd imm13 => Sys2Proof.Machine.execIfNeRi rd imm13 s
  | .ifLtRi rd imm13 => Sys2Proof.Machine.execIfLtRi rd imm13 s
  | .ifGeRi rd imm13 => Sys2Proof.Machine.execIfGeRi rd imm13 s
  | .ifUltRi rd imm13 => Sys2Proof.Machine.execIfUltRi rd imm13 s
  | .ifUgeRi rd imm13 => Sys2Proof.Machine.execIfUgeRi rd imm13 s
  | .moveRi rd imm13 => Sys2Proof.Machine.execMoveRi rd imm13 s
  | .undef7Ri rd imm13 => Sys2Proof.Machine.execUndef7Ri rd imm13 s
  | .jumpImm imm13 => Sys2Proof.Machine.execJumpImm imm13 s
  | .callImm imm13 => Sys2Proof.Machine.execCallImm imm13 s
  | .imm imm13 => Sys2Proof.Machine.execImm imm13 s

end Sys2Proof.Machine
end

