-- ==== Sys2Proof/Machine/Step.lean ====
section
/-!
DEFINITION. One step of the machine (spec/40_step_and_operand.md R129), and the placing of a word to be fetched.
-/

namespace Sys2Proof.Machine

/-- One step: fetch, execute, decay the latch, advance, count (R129). A fault stops it before items 4 to 6 (R130). Once
HALT or ERROR has been executed no further step runs (R229): the state stays as it is (log 16). -/
def step (s : State) : Host.Outcome State Fault Refusal :=
  if s.ended then .next s
  else
    match exec s.fetch s with
    | .next t => .next t.finishStep
    | .fault f => .fault f
    | .refused r => .refused r

/-- `s` with the instruction whose bits are `w` (those above `nbits` zero) in the slot the next step fetches (log 25). -/
def State.withFetchWord (s : State) (nbits w : Nat) : State := s.placeWord (BitVec.ofNat 16 (w % 2 ^ nbits))

end Sys2Proof.Machine
end

