-- ==== Sys2Proof/Machine/Run.lean ====
section
/-!
DEFINITION. The engine's states, the run loop and its outcomes, and the host's entry point
(spec/40_step_and_operand.md R120 to R122, spec/60_exceptions.md R220 to R227, spec/70_reset_and_hazards.md R251 to R256).
-/

namespace Sys2Proof.Machine

/-- The states of the engine that a machine state can be in (R120). CycleLimitReached and Fatal are outcomes of a run. -/
inductive Status where
  | running | halted | errored
  deriving DecidableEq, Repr

/-- The engine state: `halt` is tested first (R121). -/
def State.status (s : State) : Status := if s.halt then .halted else if s.error then .errored else .running

/-- The error exit code: the unsigned value of `x[1]`, 1 if that is zero (R150, R225, D17; log 17). -/
def State.errorExitCode (s : State) : Nat := if s.reg 1 = 0 then 1 else (s.reg 1).toNat

/-- The outcomes of a run (R220). `refused` is the model's own: it stands for a step the model refuses, and no step is
(log 19). -/
inductive RunOutcome where
  | halted
  | errored (code : Nat)
  | cycleLimitReached
  | fatal (cause : Fault)
  | refused (reason : Refusal)
  deriving DecidableEq, Repr

/-- The exit code the host receives: none for an aborted run (R222, R224, R225, R227). -/
def RunOutcome.exitCode : RunOutcome → Option Int
  | .halted => some 0
  | .errored code => some (Int.ofNat code)
  | .cycleLimitReached => some Config.exitCycleLimit
  | .fatal _ => none
  | .refused _ => none

/-- The run loop with a budget of steps: `halt`, then `error`, then the budget are tested before each step (R121, D19;
log 19). It answers the outcome and the last state; a fatal step leaves the state it began in (R130). -/
def run : Nat → State → RunOutcome × State
  | 0, s =>
    match s.status with
    | .halted => (.halted, s)
    | .errored => (.errored s.errorExitCode, s)
    | .running => (.cycleLimitReached, s)
  | n + 1, s =>
    match s.status with
    | .halted => (.halted, s)
    | .errored => (.errored s.errorExitCode, s)
    | .running =>
      match step s with
      | .next t => run n t
      | .fault cause => (.fatal cause, s)
      | .refused reason => (.refused reason, s)

/-- Program load: word `i` to slot `i`; the slots beyond keep the all-zero word (R252). -/
def State.loadProgram (s : State) (programWords : List Word) : State :=
  { s with pmem := s.pmem.load 0x0000#16 programWords }

/-- Data pre-load: word `i` into `ram[i]`, not through the bus (R76, R253). -/
def State.preload (s : State) (dataWords : List Word) : State := s.setRam (s.ram.load 0x0000#16 dataWords)

/-- Why a launch is refused: the inputs that do not fit the spaces (R254, D30; log 24). Safe. -/
inductive LaunchRefusal where
  /-- More than 65536 program words. -/
  | programTooLong
  /-- More than 65536 data words. -/
  | dataTooLong
  deriving DecidableEq, Repr

/-- Reset, program load, data pre-load (R251). -/
def boot (programWords dataWords : List Word) : Except LaunchRefusal State :=
  if 65536 < programWords.length then .error .programTooLong
  else if 65536 < dataWords.length then .error .dataTooLong
  else .ok ((State.reset.loadProgram programWords).preload dataWords)

/-- The host's single entry point (R251). The trace flag has no architectural effect (R238, D31; log 27). -/
def launch (maxCycles : Nat) (programWords dataWords : List Word) (_traceEnabled : Bool) :
    Except LaunchRefusal (RunOutcome × State) :=
  match boot programWords dataWords with
  | .ok s => .ok (run maxCycles s)
  | .error reason => .error reason

end Sys2Proof.Machine
end

