-- ==== Sys2Proof/Safety.lean ====
section
/-!
DEFINITION. The terms that claims are stated in: the step-boundary invariant, what an instruction may change, and the
predicates and encodings as the instruction rules write them.
-/

namespace Sys2Proof.Machine

/-- The run has not ended (R120). -/
abbrev State.Running (s : State) : Prop := s.halt = false ∧ s.error = false

/-- What holds of the state at every step boundary: `skip` is 0 (R29), the latch is as R32 says, HALT and ERROR do not
coincide (R229), and both memories are in the model's canonical form. -/
abbrev State.Boundary (s : State) : Prop :=
  s.skip = false ∧ s.latch.expireNext = false ∧
  (s.latch.valid = false → s.latch.value = 0x0000#16) ∧
  (s.latch.valid = true → s.latch.value.extractLsb' 0 4 = 0#4) ∧
  ¬ (s.halt = true ∧ s.error = true) ∧
  s.pmem.wf = true ∧ s.ram.wf = true

/-! ### Frames -/

/-- Every general register is as before. -/
def SameRegs (s t : State) : Prop := ∀ q : RegNum, t.reg q = s.reg q

/-- Every word of both memories reads as before, and nothing was emitted. -/
def SameStores (s t : State) : Prop :=
  (∀ a : Word, t.ram.read a = s.ram.read a) ∧ (∀ a : Word, t.pmem.read a = s.pmem.read a) ∧ t.out = s.out

/-- The latch, the signals and the cycle counter are as before. -/
def SameControl (s t : State) : Prop :=
  t.latch = s.latch ∧ t.halt = s.halt ∧ t.error = s.error ∧ t.cycle = s.cycle

/-- Register `rd` holds `v`, and nothing else differs. -/
def OnlyRegister (rd : RegNum) (v : Word) (s t : State) : Prop :=
  t.reg rd = v ∧ (∀ q : RegNum, q ≠ rd → t.reg q = s.reg q) ∧
  t.pc = s.pc ∧ t.skip = s.skip ∧ SameControl s t ∧ SameStores s t

/-- The program counter is `target`, and nothing else differs. -/
def OnlyPc (target : Word) (s t : State) : Prop :=
  t.pc = target ∧ SameRegs s t ∧ t.skip = s.skip ∧ SameControl s t ∧ SameStores s t

/-- The skip flag is `b`, and nothing else differs. -/
def OnlySkip (b : Bool) (s t : State) : Prop :=
  t.skip = b ∧ SameRegs s t ∧ t.pc = s.pc ∧ SameControl s t ∧ SameStores s t

/-- The general register that the spec lets an instruction write, if it names one (R23). -/
def destinationOf : Instr → Option RegNum
  | .moveRr rd _ | .addRr rd _ | .subRr rd _ | .xorRr rd _ | .andRr rd _ | .orRr rd _ | .shlRr rd _
  | .shrRr rd _ | .asrRr rd _ | .load rd _ _ | .addRi rd _ | .subRi rd _ | .xorRi rd _ | .andRi rd _
  | .orRi rd _ | .shlRi rd _ | .shrRi rd _ | .asrRi rd _ | .moveRi rd _ => some rd
  | .callRr _ _ | .callImm _ => some 0
  | .nop _ _ | .undef1Rr _ _ | .error _ _ | .halt _ _ | .undef4Rr _ _ | .undef5Rr _ _ | .undef7Rr _ _
  | .jumpRr _ _ | .immRr _ _ | .undef11Rr _ _ | .loadRr _ _ | .storeRr _ _ | .undef14Rr _ _ | .undef15Rr _ _
  | .undef18Rr _ _ | .undef19Rr _ _ | .ifEqRr _ _ | .ifNeRr _ _ | .ifLtRr _ _ | .ifGeRr _ _ | .ifUltRr _ _
  | .ifUgeRr _ _ | .store _ _ _ | .undef14Ls _ _ _ | .undef15Ls _ _ _ | .undef18Ri _ _ | .undef19Ri _ _
  | .ifEqRi _ _ | .ifNeRi _ _ | .ifLtRi _ _ | .ifGeRi _ _ | .ifUltRi _ _ | .ifUgeRi _ _ | .undef7Ri _ _
  | .jumpImm _ | .imm _ => none

/-! ### Words as the instruction rules write them -/

/-- `rd<<12 | rs<<8 | code`: an RR word. -/
def rrWord (rd rs : RegNum) (code : Word) : Word := rd.setWidth 16 <<< 12 ||| rs.setWidth 16 <<< 8 ||| code

/-- `rd<<12 | imm6<<6 | code`: an RI6 word, the immediate truncated to its field. -/
def ri6Word (rd : RegNum) (imm13 : Imm13) (code : Word) : Word :=
  rd.setWidth 16 <<< 12 ||| (imm13.setWidth 6).setWidth 16 <<< 6 ||| code

/-- `rd<<12 | rs<<8 | imm4<<4 | code`: an LS word. -/
def lsWord (rd rs : RegNum) (imm13 : Imm13) (code : Word) : Word :=
  rd.setWidth 16 <<< 12 ||| rs.setWidth 16 <<< 8 ||| (imm13.setWidth 4).setWidth 16 <<< 4 ||| code

/-! ### The two-address and the compare instructions -/

/-- Both forms of a two-address operation complete, leave in `x[rd]` a value that `result` relates to the old `x[rd]` and
the operand, change nothing else, and have the words of their rule (R180). -/
def TwoAddress (rr : RegNum → RegNum → Instr) (ri : RegNum → Imm13 → Instr) (codeRr codeRi : Word)
    (result : Word → Word → Word → Prop) : Prop :=
  (∀ (rd rs : RegNum) (s : State), ∃ t v, exec (rr rd rs) s = .next t ∧
    result (s.reg rd) (s.reg rs) v ∧ OnlyRegister rd v s t) ∧
  (∀ (rd : RegNum) (imm13 : Imm13) (s : State), ∃ t v, exec (ri rd imm13) s = .next t ∧
    result (s.reg rd) (operandImm s imm13) v ∧ OnlyRegister rd v s t) ∧
  (∀ rd rs : RegNum, encode (rr rd rs) = rrWord rd rs codeRr) ∧
  (∀ (rd : RegNum) (imm13 : Imm13), encode (ri rd imm13) = ri6Word rd imm13 codeRi)

/-- Both forms of a compare complete, set `skip` exactly when the predicate fails, change nothing else, and have the
words of their rule (R200). -/
def Compares (rr : RegNum → RegNum → Instr) (ri : RegNum → Imm13 → Instr) (codeRr codeRi : Word)
    (holds : Word → Word → Prop) : Prop :=
  (∀ (rd rs : RegNum) (s : State), ∃ t b, exec (rr rd rs) s = .next t ∧ OnlySkip b s t ∧
    (holds (s.reg rd) (s.reg rs) → b = s.skip) ∧ (¬ holds (s.reg rd) (s.reg rs) → b = true)) ∧
  (∀ (rd : RegNum) (imm13 : Imm13) (s : State), ∃ t b, exec (ri rd imm13) s = .next t ∧ OnlySkip b s t ∧
    (holds (s.reg rd) (operandImm s imm13) → b = s.skip) ∧ (¬ holds (s.reg rd) (operandImm s imm13) → b = true)) ∧
  (∀ rd rs : RegNum, encode (rr rd rs) = rrWord rd rs codeRr) ∧
  (∀ (rd : RegNum) (imm13 : Imm13), encode (ri rd imm13) = ri6Word rd imm13 codeRi)

/-- The operand of an instruction, whatever its form (R123). -/
def operandOf (i : Instr) (s : State) : Word :=
  match i.format with
  | .rr => s.reg i.record.srcReg
  | .ls | .ri6 | .ri8 | .i11 | .i12 => operandImm s i.record.imm13

/-- The left operand of an instruction: its destination register (R200). -/
def leftOf (i : Instr) (s : State) : Word := s.reg i.record.destReg

/-- The predicate of a compare, by its opcode number (R201 to R206). -/
def CompareHolds (opcode : BitVec 5) (x y : Word) : Prop :=
  (opcode = 26#5 ∧ x = y) ∨ (opcode = 27#5 ∧ x ≠ y) ∨
  (opcode = 28#5 ∧ x.toInt < y.toInt) ∨ (opcode = 29#5 ∧ y.toInt ≤ x.toInt) ∨
  (opcode = 30#5 ∧ x.toNat < y.toNat) ∨ (opcode = 31#5 ∧ y.toNat ≤ x.toNat)

/-- The nine opcode numbers with no defined behaviour (R102). -/
def unknownOpcodes : List (BitVec 5) := [1#5, 4#5, 5#5, 7#5, 11#5, 14#5, 15#5, 18#5, 19#5]

end Sys2Proof.Machine
end

