-- ==== Sys2Proof/Certificates/Slice0/Obligations.lean ====
section
/-!
DEFINITION. The statements for the provers, each with the rule of spec/ it formalises. "The spec's decision D<n>" marks a
point the spec's source leaves open and the spec decided itself (spec/92_eei_decisions.md).
-/

open Sys2Proof Sys2Proof.Machine

/-! ### Encoding -/

/-- R98: `decode` applied to a word built from an opcode, register fields and an immediate recovers exactly those fields,
for every instruction of every format, with absent fields as R92 has them. -/
def Obligations.DecodeRecoversEncodedFields : Prop :=
  ∀ i : Instr, i.wellFormed = true → decode (encode i) = i ∧ decodeRecord (encode i) = i.record

/-- spec/95_test_vectors.md section 1.7: re-encoding a decoded word gives the word back, with bit 7 of an RR word, which
the decoder ignores (the spec's decision D6), cleared. -/
def Obligations.EncodeRecoversDecodedWord : Prop :=
  ∀ w : Word, encode (decode w) = if w.extractLsb' 0 2 = 0b00#2 then w &&& 0xFF7F#16 else w

/-- R97 (marked derived by the spec): the immediate of a decoded word lies in the range of its format. -/
def Obligations.DecodedInstructionIsWellFormed : Prop :=
  ∀ w : Word, (decode w).wellFormed = true

/-- R90 (marked derived by the spec; layout the spec's decisions D1 to D7): the record of the decoded instruction, field by
field, in plain arithmetic on the word's number. -/
def Obligations.DecodeYieldsTheCanonicalRecord : Prop :=
  ∀ w : Word,
    let n := w.toNat
    let r := (decode w).record
    (n % 4 = 0 → r.format = .rr ∧ r.opcode.toNat = n / 4 % 32 ∧ r.destReg.toNat = n / 4096 ∧
      r.srcReg.toNat = n / 256 % 16 ∧ r.imm13.toInt = 0) ∧
    (n % 4 = 1 → r.format = .ls ∧ r.opcode.toNat = 12 + n / 4 % 4 ∧ r.destReg.toNat = n / 4096 ∧
      r.srcReg.toNat = n / 256 % 16 ∧ r.imm13.toInt = (n / 16 % 16 : Nat)) ∧
    (n % 4 = 2 → r.format = .ri6 ∧ r.opcode.toNat = 16 + n / 4 % 16 ∧ r.destReg.toNat = n / 4096 ∧
      r.srcReg.toNat = 0 ∧ r.imm13.toInt = ((n / 64 % 64 : Nat) : Int).bmod 64) ∧
    (n % 8 = 3 → r.format = .ri8 ∧ r.opcode.toNat = 6 + n / 8 % 2 ∧ r.destReg.toNat = n / 4096 ∧
      r.srcReg.toNat = 0 ∧ r.imm13.toInt = ((n / 16 % 256 : Nat) : Int).bmod 256) ∧
    (n % 16 = 7 → r.format = .i11 ∧ r.opcode.toNat = 8 + 2 * (n / 16 % 2) ∧ r.destReg.toNat = 0 ∧
      r.srcReg.toNat = 0 ∧ r.imm13.toInt = ((n / 32 : Nat) : Int).bmod 2048) ∧
    (n % 16 = 15 → r.format = .i12 ∧ r.opcode.toNat = 9 ∧ r.destReg.toNat = 0 ∧
      r.srcReg.toNat = 0 ∧ r.imm13.toInt = ((n / 16 : Nat) : Int).bmod 4096)

/-- R94, R95: XOR-ing a field with its sign-bit mask and subtracting the mask is the two's-complement reading of the
field, for every width up to 13 and every value. -/
def Obligations.SignExtensionReadsTwosComplement : Prop :=
  ∀ n : Nat, 1 ≤ n → n ≤ 13 → ∀ v : BitVec n,
    (sextField n v).toInt = v.toInt ∧
    (sextField n v).toInt = ((v.toNat ^^^ 2 ^ (n - 1) : Nat) : Int) - 2 ^ (n - 1)

/-- R110 (marked derived by the spec): the encoders, as the spec writes them with shifts. -/
def Obligations.EncodersAreTheSpecExpressions : Prop :=
  ∀ i : Instr,
    let r := i.record
    let op := r.opcode.setWidth 16
    let rd := r.destReg.setWidth 16
    let rs := r.srcReg.setWidth 16
    let imm := r.imm13.signExtend 16
    encode i = match i.format with
      | .rr => rd <<< 12 ||| rs <<< 8 ||| op <<< 2 ||| 0b00#16
      | .ls => rd <<< 12 ||| rs <<< 8 ||| (imm &&& 0xF#16) <<< 4 ||| (op &&& 0b11#16) <<< 2 ||| 0b01#16
      | .ri6 => rd <<< 12 ||| (imm &&& 0x3F#16) <<< 6 ||| (op &&& 0xF#16) <<< 2 ||| 0b10#16
      | .ri8 => rd <<< 12 ||| (imm &&& 0xFF#16) <<< 4 ||| (op &&& 1#16) <<< 3 ||| 0b011#16
      | .i11 => (imm &&& 0x7FF#16) <<< 5 ||| ((op >>> 1) &&& 1#16) <<< 4 ||| 0b0111#16
      | .i12 => (imm &&& 0xFFF#16) <<< 4 ||| 0b1111#16

/-- Words written out bit by bit from the layouts of R83 to R88 decode to the instruction they stand for, one or two of
each family (spec/95_test_vectors.md section 2; numbers are the spec's decisions D1 to D4). -/
def Obligations.SampleWordsDecode : Prop :=
  decode 0b0000000000000000#16 = .nop 0 0 ∧ decode 0b0000000010000000#16 = .nop 0 0 ∧
  decode 0b0000010100101000#16 = .callRr 0 5 ∧ decode 0b0001001000110101#16 = .store 1 2 3 ∧
  decode 0b0011001000110001#16 = .load 3 2 3 ∧ decode 0b0001100000000010#16 = .addRi 1 (-32) ∧
  decode 0b0010000000101110#16 = .ifNeRi 2 0 ∧ decode 0b0001111111110011#16 = .moveRi 1 (-1) ∧
  decode 0b1111111110000111#16 = .jumpImm (-4) ∧ decode 0b1000000000001111#16 = .imm (-2048) ∧
  decode 0b0000000000100100#16 = .immRr 0 0 ∧ decode 0b1111111111111001#16 = .undef14Ls 15 15 15

/-! ### The step -/

/-- A step runs the decoded instruction, and then decays the latch, advances the program counter past the skipped unit if
the instruction set `skip`, clears `skip` and counts a cycle; a fault ends it at once (R129, R130, R126, R127, R128; the
latch mechanism, the look-ahead and the wrap are the spec's decisions D12, D13, D14). -/
def Obligations.StepRunsTheDecodedInstruction : Prop :=
  ∀ (s : State) (i : Instr), s.Running → decode (s.pmem.read s.pc) = i → i.wellFormed = true →
    (∀ t, exec i s = .next t → ∃ u, step s = .next u ∧
      SameRegs t u ∧ SameStores t u ∧ u.halt = t.halt ∧ u.error = t.error ∧
      u.latch = (if t.latch.expireNext then ⟨t.latch.value, t.latch.valid, false⟩ else ⟨0x0000#16, false, false⟩) ∧
      u.pc = (if t.skip then
        (if (decode (t.pmem.read (t.pc + 1))).opcode = 9#5 then t.pc + 3 else t.pc + 2) else t.pc + 1) ∧
      u.skip = false ∧ u.cycle = t.cycle + 1) ∧
    (∀ f, exec i s = .fault f → step s = .fault f)

/-- The model's choice (assumption log 16): a machine whose run has ended stays as it is. The spec says that no further
step runs (R121, R229) and gives no transition. -/
def Obligations.EndedMachineStaysPut : Prop :=
  ∀ s : State, ¬ s.Running → step s = .next s

/-- R123, R96 (how an immediate combines with the latch is the spec's decision D10): the operand of every immediate format
is the sign-extended immediate, or with a valid latch its value with the low nibble replaced, which is also an OR when the
latch's own low nibble is 0. -/
def Obligations.OperandCombinesImmediateAndLatch : Prop :=
  ∀ (s : State) (imm13 : Imm13),
    (s.latch.valid = false → (operandImm s imm13).toInt = imm13.toInt) ∧
    (s.latch.valid = true → (operandImm s imm13).toNat = s.latch.value.toNat / 16 * 16 + imm13.toNat % 16) ∧
    (s.latch.valid = true → s.latch.value.extractLsb' 0 4 = 0#4 →
      operandImm s imm13 = s.latch.value ||| BitVec.ofNat 16 (imm13.toNat % 16))

/-- The latch property (spec/40_step_and_operand.md section 4): an immediate extension gives the next instruction the
operand assembled from its 12 bits and that instruction's low nibble, and a third instruction does not observe the latch
(unless the second was an extension too). That only the low nibble of the next immediate counts, and that an extension
loads its own field whatever the latch held, are the spec's decisions D10 and D11 (log 10). -/
def Obligations.LatchSurvivesExactlyOneInstruction : Prop :=
  ∀ (s : State) (k : Imm13), s.Boundary → s.Running → s.fetch = .imm k →
    ∃ t, step s = .next t ∧ t.pc = s.pc + 1 ∧
      (∀ m : Imm13, operandImm t m = k.extractLsb' 0 12 ++ m.extractLsb' 0 4) ∧
      (∀ u, (∀ k' : Imm13, t.fetch ≠ .imm k') → step t = .next u →
        ∀ m : Imm13, operandImm u m = m.signExtend 16)

/-- R32's last invariant (marked derived by the spec): after a step the latch is valid exactly if the step executed an
IMM, and then holds its 12 bits. -/
def Obligations.LatchIsValidExactlyAfterImm : Prop :=
  ∀ s t : State, s.Boundary → s.Running → step s = .next t →
    (t.latch.valid = true ↔ ∃ k : Imm13, s.fetch = .imm k) ∧
    (∀ k : Imm13, s.fetch = .imm k → t.latch.value = k.extractLsb' 0 12 ++ 0#4)

/-- The skip property (spec/40_step_and_operand.md section 4): a compare whose predicate is false causes exactly one
following instruction, two if that one is an immediate extension, to be skipped, with nothing of the skipped instructions
observable. That the instruction examined is the one at `pc + 1`, and is an extension by its opcode number alone, so that an
RR word of number 9 counts, is the spec's decision D13 (log 12); the wrap of `pc` is its decision D14 (log 13). -/
def Obligations.FalseCompareSkipsOneUnit : Prop :=
  ∀ s : State, s.Boundary → s.Running → 26 ≤ s.fetch.opcode.toNat →
    ¬ CompareHolds s.fetch.opcode (leftOf s.fetch s) (operandOf s.fetch s) →
    ∃ t, step s = .next t ∧
      t.pc = (if (s.instrAt (s.pc + 1)).opcode = 9#5 then s.pc + 3 else s.pc + 2) ∧
      SameRegs s t ∧ SameStores s t ∧ t.latch.valid = false ∧ t.halt = false ∧ t.error = false ∧
      t.cycle = s.cycle + 1

/-- spec/45_compare_skip.md section 1: a compare whose predicate holds does nothing but end its step, and the next
instruction is the one that follows it. -/
def Obligations.TrueCompareGoesOn : Prop :=
  ∀ s : State, s.Boundary → s.Running →
    CompareHolds s.fetch.opcode (leftOf s.fetch s) (operandOf s.fetch s) →
    ∃ t, step s = .next t ∧ t.pc = s.pc + 1 ∧ SameRegs s t ∧ SameStores s t ∧
      t.latch.valid = false ∧ t.halt = false ∧ t.error = false ∧ t.cycle = s.cycle + 1

/-! ### Control -/

/-- spec/41_control.md, NOP (the spec's decision D8): it completes and changes nothing, and still takes a full step: the
latch decays, the program counter advances by one and a cycle is counted. -/
def Obligations.NopChangesNothing : Prop :=
  (∀ (rd rs : RegNum) (s : State), exec (.nop rd rs) s = .next s) ∧
  (∀ (rd rs : RegNum) (s : State), s.Boundary → s.Running → s.fetch = .nop rd rs →
    ∃ t, step s = .next t ∧ t.pc = s.pc + 1 ∧ t.cycle = s.cycle + 1 ∧ t.latch.valid = false ∧
      SameRegs s t ∧ SameStores s t ∧ t.Running)

/-- spec/41_control.md, JUMP (the spec's decision D14): the register form assigns, the immediate form adds a signed offset,
modulo 2^16; nothing else changes, and the ordinary advance follows. -/
def Obligations.JumpTransfersControl : Prop :=
  (∀ (rd rs : RegNum) (s : State), ∃ t, exec (.jumpRr rd rs) s = .next t ∧ OnlyPc (s.reg rs) s t) ∧
  (∀ (imm13 : Imm13) (s : State), ∃ t, exec (.jumpImm imm13) s = .next t ∧
    OnlyPc (BitVec.ofInt 16 (s.pc.toNat + (operandImm s imm13).toInt)) s t) ∧
  (∀ (rd rs : RegNum) (s : State), s.Boundary → s.Running → s.fetch = .jumpRr rd rs →
    ∃ u, step s = .next u ∧ u.pc = s.reg rs + 1) ∧
  (∀ (imm13 : Imm13) (s : State), s.Boundary → s.Running → s.fetch = .jumpImm imm13 →
    ∃ u, step s = .next u ∧ u.pc = s.pc + 1 + operandImm s imm13)

/-- spec/41_control.md, CALL (the spec's decision D15): `x[0]` receives the address of the CALL itself, the target is that
of the JUMP of the same form with the old `x[0]`; nothing else changes. -/
def Obligations.CallSavesItsAddressAndTransfers : Prop :=
  (∀ (rd rs : RegNum) (s : State), ∃ t, exec (.callRr rd rs) s = .next t ∧ t.reg 0 = s.pc ∧ t.pc = s.reg rs ∧
    (∀ q : RegNum, q ≠ 0 → t.reg q = s.reg q) ∧ t.skip = s.skip ∧ SameControl s t ∧ SameStores s t) ∧
  (∀ (imm13 : Imm13) (s : State), ∃ t, exec (.callImm imm13) s = .next t ∧ t.reg 0 = s.pc ∧
    t.pc = BitVec.ofInt 16 (s.pc.toNat + (operandImm s imm13).toInt) ∧
    (∀ q : RegNum, q ≠ 0 → t.reg q = s.reg q) ∧ t.skip = s.skip ∧ SameControl s t ∧ SameStores s t)

/-- spec/41_control.md, R147 (marked derived by the spec): a register-form `jump r0` in any later state that still holds
the link resumes at the instruction after the CALL. -/
def Obligations.ReturnResumesAfterTheCall : Prop :=
  ∀ s t : State, s.Boundary → s.Running →
    ((∃ rd rs : RegNum, s.fetch = .callRr rd rs) ∨ ∃ imm13 : Imm13, s.fetch = .callImm imm13) → step s = .next t →
    ∀ (v : State) (rd : RegNum), v.Boundary → v.Running → v.fetch = .jumpRr rd 0 → v.reg 0 = t.reg 0 →
      ∃ u, step v = .next u ∧ u.pc = s.pc + 1

/-- R148, R224: HALT sets the halt signal and nothing else, whatever its register fields hold; the run loop returns after
that step with exit code 0, whatever the registers hold. -/
def Obligations.HaltEndsTheRunWithZero : Prop :=
  (∀ (rd rs : RegNum) (s : State), ∃ t, exec (.halt rd rs) s = .next t ∧ t.halt = true ∧ t.error = s.error ∧
    SameRegs s t ∧ t.pc = s.pc ∧ t.skip = s.skip ∧ t.latch = s.latch ∧ t.cycle = s.cycle ∧ SameStores s t) ∧
  (∀ rd rs : RegNum, encode (.halt rd rs) = rrWord rd rs 0x000C#16) ∧
  (∀ (rd rs : RegNum) (s : State) (n : Nat), s.Running → s.fetch = .halt rd rs →
    ∃ t, run (n + 1) s = (.halted, t) ∧ SameRegs s t ∧ SameStores s t) ∧
  RunOutcome.halted.exitCode = some 0

/-- R225: ERROR sets the error signal and nothing else; the run loop returns after that step with `x[1]`, or 1 if `x[1]`
is zero. -/
def Obligations.ErrorEndsTheRunWithRegisterOne : Prop :=
  (∀ (rd rs : RegNum) (s : State), ∃ t, exec (.error rd rs) s = .next t ∧ t.error = true ∧ t.halt = s.halt ∧
    SameRegs s t ∧ t.pc = s.pc ∧ t.skip = s.skip ∧ t.latch = s.latch ∧ t.cycle = s.cycle ∧ SameStores s t) ∧
  (∀ (rd rs : RegNum) (s : State) (n : Nat), s.Running → s.fetch = .error rd rs →
    ∃ (c : Nat) (t : State), run (n + 1) s = (.errored c, t) ∧ SameRegs s t ∧ SameStores s t ∧
      (s.reg 1 ≠ 0 → c = (s.reg 1).toNat) ∧ (s.reg 1 = 0 → c = 1) ∧
      (RunOutcome.errored c).exitCode = some (c : Int))

/-! ### Immediate extension and data movement -/

/-- spec/42_imm_and_move.md, IMM (the spec's decision D11): the latch takes the instruction's 12 bits above a zero nibble,
becomes valid and is marked to survive this step; nothing else changes, whatever the latch held. -/
def Obligations.ImmLoadsTheLatch : Prop :=
  ∀ (imm13 : Imm13) (s : State), ∃ t, exec (.imm imm13) s = .next t ∧
    t.latch = ⟨imm13.extractLsb' 0 12 ++ 0#4, true, true⟩ ∧ SameRegs s t ∧ t.pc = s.pc ∧ t.skip = s.skip ∧
    t.halt = s.halt ∧ t.error = s.error ∧ t.cycle = s.cycle ∧ SameStores s t

/-- R163: MOVE copies the operand to the destination register, in both forms, and changes nothing else. -/
def Obligations.MoveCopiesTheOperand : Prop :=
  (∀ (rd rs : RegNum) (s : State), ∃ t, exec (.moveRr rd rs) s = .next t ∧ OnlyRegister rd (s.reg rs) s t) ∧
  (∀ (rd : RegNum) (imm13 : Imm13) (s : State), ∃ t, exec (.moveRi rd imm13) s = .next t ∧
    OnlyRegister rd (operandImm s imm13) s t ∧
    (s.latch.valid = false → (t.reg rd).toInt = imm13.toInt) ∧
    (s.latch.valid = true → t.reg rd = s.latch.value.extractLsb' 4 12 ++ imm13.extractLsb' 0 4)) ∧
  (∀ rd rs : RegNum, encode (.moveRr rd rs) = rrWord rd rs 0x0018#16) ∧
  (∀ (rd : RegNum) (imm13 : Imm13), encode (.moveRi rd imm13) =
    rd.setWidth 16 <<< 12 ||| (imm13.setWidth 8).setWidth 16 <<< 4 ||| 0x0003#16)

/-- spec/42_imm_and_move.md, R165 (marked derived by the spec): `imm K[15:4]` then `move rd, K[3:0]` leaves the 16-bit
constant `K` in `rd`, whatever the upper bits of the second immediate, and the latch cleared. -/
def Obligations.PrefixedMoveLoadsAnyConstant : Prop :=
  ∀ (s : State) (rd : RegNum) (k m : Imm13) (value : Word), s.Boundary → s.Running →
    s.fetch = .imm k → s.instrAt (s.pc + 1) = .moveRi rd m →
    k.extractLsb' 0 12 = value.extractLsb' 4 12 → m.extractLsb' 0 4 = value.extractLsb' 0 4 →
    ∃ t u, step s = .next t ∧ step t = .next u ∧ u.reg rd = value ∧ (∀ q : RegNum, q ≠ rd → u.reg q = s.reg q) ∧
      u.pc = s.pc + 2 ∧ u.latch.valid = false ∧ u.cycle = s.cycle + 2 ∧ SameStores s u

/-! ### Memory access and the bus -/

/-- R170: the effective address is base plus operand modulo 2^16; LOAD writes the word read there to `rd`, the base
being read first, and changes nothing else; at 0xFFFF it is fatal. -/
def Obligations.LoadReadsTheAddressedWord : Prop :=
  (∀ (rs : RegNum) (imm13 : Imm13) (s : State), (effectiveAddress s rs imm13).toNat =
    ((s.reg rs).toNat + (operandImm s imm13).toNat) % 65536) ∧
  (∀ (rd rs : RegNum) (imm13 : Imm13) (s : State), effectiveAddress s rs imm13 ≠ 0xFFFF#16 →
    ∃ t, exec (.load rd rs imm13) s = .next t ∧
      OnlyRegister rd (s.ram.read (effectiveAddress s rs imm13)) s t) ∧
  (∀ (rd rs : RegNum) (imm13 : Imm13) (s : State), effectiveAddress s rs imm13 = 0xFFFF#16 →
    exec (.load rd rs imm13) s = .fault (.busUnhandled 0xFFFF#16 false)) ∧
  (∀ (rd rs : RegNum) (imm13 : Imm13), encode (.load rd rs imm13) = lsWord rd rs imm13 0x0001#16)

/-- R171: STORE writes the 16 bits of `x[rd]` to the effective address; at 0xFF00 it emits the low byte (`CR_SEQ` for 0x0D)
and stores nothing; at 0xFFFF it is fatal. No register is written and no other word changes. -/
def Obligations.StoreWritesTheAddressedWord : Prop :=
  (∀ (rd rs : RegNum) (imm13 : Imm13) (s : State) (ea : Word), s.ram.wf = true → ea = effectiveAddress s rs imm13 →
    ea ≠ 0xFFFF#16 →
    ∃ t, exec (.store rd rs imm13) s = .next t ∧
      SameRegs s t ∧ t.pc = s.pc ∧ t.skip = s.skip ∧ SameControl s t ∧
      (∀ a : Word, t.pmem.read a = s.pmem.read a) ∧
      (∀ a : Word, a ≠ ea → t.ram.read a = s.ram.read a) ∧
      (ea ≠ 0xFF00#16 → t.ram.read ea = s.reg rd ∧ t.out = s.out) ∧
      (ea = 0xFF00#16 → t.ram.read ea = s.ram.read ea ∧
        ((s.reg rd).toNat % 256 ≠ 13 → t.out = s.out ++ [BitVec.ofNat 8 (s.reg rd).toNat]) ∧
        ((s.reg rd).toNat % 256 = 13 → t.out = s.out ++ Config.crSeq))) ∧
  (∀ (rd rs : RegNum) (imm13 : Imm13) (s : State), effectiveAddress s rs imm13 = 0xFFFF#16 →
    exec (.store rd rs imm13) s = .fault (.busUnhandled 0xFFFF#16 true)) ∧
  (∀ (rd rs : RegNum) (imm13 : Imm13), encode (.store rd rs imm13) = lsWord rd rs imm13 0x0005#16)

/-- R173 (marked derived by the spec): a store, then a load at the same computed address, reads back the stored value, for
every mapped address but 0xFF00, where the load reads what RAM held. -/
def Obligations.StoreThenLoadReadsBack : Prop :=
  ∀ (ra rb rs rs' : RegNum) (k k' : Imm13) (s t v : State), s.ram.wf = true →
    exec (.store ra rs k) s = .next t →
    (∀ a : Word, v.ram.read a = t.ram.read a) → effectiveAddress v rs' k' = effectiveAddress s rs k →
    ∃ u, exec (.load rb rs' k') v = .next u ∧
      (effectiveAddress s rs k ≠ 0xFF00#16 → u.reg rb = s.reg ra) ∧
      (effectiveAddress s rs k = 0xFF00#16 → u.reg rb = s.ram.read 0xFF00#16)

/-- R65: what a bus write does and what a bus read returns at every address of the data space. -/
def Obligations.MemoryMapGovernsTheBus : Prop :=
  ∀ (s : State) (a data : Word), s.ram.wf = true →
    (a.toNat ≤ 0xFEFF ∨ (0xFF01 ≤ a.toNat ∧ a.toNat ≤ 0xFFFE) →
      ∃ t, memWrite s a data = some (t, data) ∧ t.ram.read a = data ∧ t.out = s.out ∧
        (∀ b : Word, b ≠ a → t.ram.read b = s.ram.read b) ∧ memRead t a = some (t, data)) ∧
    (a.toNat = 0xFF00 →
      ∃ t, memWrite s a data = some (t, data) ∧ (∀ b : Word, t.ram.read b = s.ram.read b) ∧
        ((data.toNat % 256 ≠ 13) → t.out = s.out ++ [BitVec.ofNat 8 data.toNat]) ∧
        ((data.toNat % 256 = 13) → t.out = s.out ++ Config.crSeq) ∧
        memRead t a = some (t, s.ram.read a)) ∧
    (a.toNat = 0xFFFF → memWrite s a data = none ∧ memRead s a = none ∧
      storeWord a data s = .fault (.busUnhandled a true) ∧
      ∀ rd : RegNum, loadWord rd a s = .fault (.busUnhandled a false)) ∧
    (a.toNat ≤ 0xFFFE → memRead s a = some (s, s.ram.read a))

/-- The dispatcher (spec/20_memory.md section 2), for any devices over any storage: the first device in priority order whose
range matches and whose handler accepts answers the transaction, whatever stands after it, and the transaction is unhandled
exactly if every device is passed over or declines; a device of a span from 1 to 65536 can be configured, and one of any
other span is refused. That a range matches by unbounded comparison, and the span's bounds, are the spec's decision D23, the
refusal its U15 (log 21). -/
def Obligations.FirstAcceptingDeviceAnswers : Prop :=
  ∀ (σ : Type) (st : σ) (a data : Word) (isWrite : Bool),
    (∀ (before after : List (Device σ)) (d : Device σ) (r : σ × Word),
      (∀ e ∈ before, ¬ (e.base.toNat ≤ a.toNat ∧ a.toNat - e.base.toNat < e.span) ∨
        e.handler st a data isWrite = none) →
      d.base.toNat ≤ a.toNat → a.toNat - d.base.toNat < d.span → d.handler st a data isWrite = some r →
      transact (before ++ d :: after) st a data isWrite = some r) ∧
    (∀ ds : List (Device σ), transact ds st a data isWrite = none ↔
      ∀ e ∈ ds, ¬ (e.base.toNat ≤ a.toNat ∧ a.toNat - e.base.toNat < e.span) ∨
        e.handler st a data isWrite = none) ∧
    (∀ (base : Word) (span : Nat) (handler : σ → Word → Word → Bool → Option (σ × Word)),
      (1 ≤ span ∧ span ≤ 65536 → ∃ d, Device.configure base span handler = .ok d ∧
        d.base = base ∧ d.span = span ∧ d.handler = handler) ∧
      (span = 0 ∨ 65536 < span → Device.configure base span handler = .error .spanOutOfRange))

/-- R52: no bus address reaches program memory and no instruction writes it; what a step fetches depends on program memory
and the program counter alone, so a fetch issues no bus transaction. -/
def Obligations.ProgramMemoryIsNeverWritten : Prop :=
  (∀ (s t : State) (a data v : Word) (isWrite : Bool),
    transact devices s a data isWrite = some (t, v) → ∀ b : Word, t.pmem.read b = s.pmem.read b) ∧
  (∀ (i : Instr) (s t : State), exec i s = .next t → ∀ b : Word, t.pmem.read b = s.pmem.read b) ∧
  (∀ s t : State, step s = .next t → ∀ b : Word, t.pmem.read b = s.pmem.read b) ∧
  (∀ s t : State, t.pc = s.pc → (∀ b : Word, t.pmem.read b = s.pmem.read b) → t.fetch = s.fetch)

/-- spec/20_memory.md R67, R42, R43 (derived): no step changes `ram[0xFF00]` or `ram[0xFFFF]`, and the output log only
grows. -/
def Obligations.ShadowedWordsKeepAndOutputGrows : Prop :=
  ∀ s t : State, s.ram.wf = true → step s = .next t →
    t.ram.read 0xFF00#16 = s.ram.read 0xFF00#16 ∧ t.ram.read 0xFFFF#16 = s.ram.read 0xFFFF#16 ∧
    ∃ bytes : List Byte, t.out = s.out ++ bytes

/-- The model's memory has one form for each contents (assumption log 1): canonical memories that read alike at every
address are equal. -/
def Obligations.CanonicalMemoriesThatReadAlikeAreEqual : Prop :=
  ∀ m n : Memory, m.wf = true → n.wf = true → (∀ a : Word, m.read a = n.read a) → m = n

/-! ### Arithmetic, bitwise and shift -/

/-- R181: ADD is addition modulo 2^16. -/
def Obligations.AddIsModularSum : Prop :=
  TwoAddress .addRr .addRi 0x40#16 0x02#16 fun x y v => v.toNat = (x.toNat + y.toNat) % 65536

/-- R182: SUB is destination minus operand, modulo 2^16. -/
def Obligations.SubIsModularDifference : Prop :=
  TwoAddress .subRr .subRi 0x44#16 0x06#16 fun x y v => (v.toNat : Int) = ((x.toNat : Int) - y.toNat) % 65536

/-- R183: XOR, bit by bit over 16 bits. -/
def Obligations.XorIsBitwise : Prop :=
  TwoAddress .xorRr .xorRi 0x50#16 0x12#16 fun x y v =>
    ∀ k : Nat, k < 16 → (v.getLsbD k = true ↔ x.getLsbD k ≠ y.getLsbD k)

/-- R184: AND, bit by bit over 16 bits. -/
def Obligations.AndIsBitwise : Prop :=
  TwoAddress .andRr .andRi 0x54#16 0x16#16 fun x y v =>
    ∀ k : Nat, k < 16 → (v.getLsbD k = true ↔ x.getLsbD k = true ∧ y.getLsbD k = true)

/-- R185: OR, bit by bit over 16 bits. -/
def Obligations.OrIsBitwise : Prop :=
  TwoAddress .orRr .orRi 0x58#16 0x1A#16 fun x y v =>
    ∀ k : Nat, k < 16 → (v.getLsbD k = true ↔ x.getLsbD k = true ∨ y.getLsbD k = true)

/-- R186: SHL multiplies by a power of two modulo 2^16, the amount being the operand's low 4 bits. -/
def Obligations.ShlMultipliesByPowerOfTwo : Prop :=
  TwoAddress .shlRr .shlRi 0x5C#16 0x1E#16 fun x y v => v.toNat = x.toNat * 2 ^ (y.toNat % 16) % 65536

/-- R187: SHR divides the unsigned value by a power of two, the amount being the operand's low 4 bits. -/
def Obligations.ShrDividesUnsigned : Prop :=
  TwoAddress .shrRr .shrRi 0x60#16 0x22#16 fun x y v => v.toNat = x.toNat / 2 ^ (y.toNat % 16)

/-- spec/44_alu.md, ASR (R188; reading the amount as the operand's low 4 bits is the spec's decision D33): the floor of the
signed value divided by a power of two. -/
def Obligations.AsrFloorsSignedQuotient : Prop :=
  TwoAddress .asrRr .asrRi 0x64#16 0x26#16 fun x y v => v.toInt = x.toInt.fdiv (2 ^ (y.toNat % 16))

/-! ### Comparison and skip -/

/-- R201: IF.EQ. -/
def Obligations.IfEqSkipsUnlessEqual : Prop :=
  Compares .ifEqRr .ifEqRi 0x68#16 0x2A#16 fun x y => x.toNat = y.toNat

/-- R202: IF.NE. -/
def Obligations.IfNeSkipsIfEqual : Prop :=
  Compares .ifNeRr .ifNeRi 0x6C#16 0x2E#16 fun x y => x.toNat ≠ y.toNat

/-- R203: IF.LT compares the two signed values. -/
def Obligations.IfLtComparesSigned : Prop :=
  Compares .ifLtRr .ifLtRi 0x70#16 0x32#16 fun x y => x.toInt < y.toInt

/-- R204: IF.GE compares the two signed values. -/
def Obligations.IfGeComparesSigned : Prop :=
  Compares .ifGeRr .ifGeRi 0x74#16 0x36#16 fun x y => y.toInt ≤ x.toInt

/-- R205: IF.ULT compares the two unsigned values. -/
def Obligations.IfUltComparesUnsigned : Prop :=
  Compares .ifUltRr .ifUltRi 0x78#16 0x3A#16 fun x y => x.toNat < y.toNat

/-- R206: IF.UGE compares the two unsigned values. -/
def Obligations.IfUgeComparesUnsigned : Prop :=
  Compares .ifUgeRr .ifUgeRi 0x7C#16 0x3E#16 fun x y => y.toNat ≤ x.toNat

/-! ### Undefined encodings and faults -/

/-- R102: a word whose decoded opcode is one of the nine undefined numbers decodes, is skipped harmlessly, and is fatal
when a step executes it. By constructor: undef1Rr, undef4Rr, undef5Rr, undef7Rr, undef11Rr, undef14Rr, undef15Rr,
undef18Rr, undef19Rr, undef14Ls, undef15Ls, undef18Ri, undef19Ri, undef7Ri. -/
def Obligations.UndefinedOpcodesAreFatalWhenExecuted : Prop :=
  (∀ (i : Instr) (s : State), i.opcode ∈ unknownOpcodes → exec i s = .fault (.unknownOpcode i.opcode s.pc)) ∧
  (∀ (rd rs : RegNum) (m : Imm13),
    (Instr.undef1Rr rd rs).opcode = 1#5 ∧ (Instr.undef4Rr rd rs).opcode = 4#5 ∧
    (Instr.undef5Rr rd rs).opcode = 5#5 ∧ (Instr.undef7Rr rd rs).opcode = 7#5 ∧
    (Instr.undef11Rr rd rs).opcode = 11#5 ∧ (Instr.undef14Rr rd rs).opcode = 14#5 ∧
    (Instr.undef15Rr rd rs).opcode = 15#5 ∧ (Instr.undef18Rr rd rs).opcode = 18#5 ∧
    (Instr.undef19Rr rd rs).opcode = 19#5 ∧ (Instr.undef14Ls rd rs m).opcode = 14#5 ∧
    (Instr.undef15Ls rd rs m).opcode = 15#5 ∧ (Instr.undef18Ri rd m).opcode = 18#5 ∧
    (Instr.undef19Ri rd m).opcode = 19#5 ∧ (Instr.undef7Ri rd m).opcode = 7#5) ∧
  (∀ s : State, s.Running → (decodeRecord (s.pmem.read s.pc)).opcode ∈ unknownOpcodes →
    step s = .fault (.unknownOpcode (decodeRecord (s.pmem.read s.pc)).opcode s.pc)) ∧
  (∀ s : State, s.Boundary → s.Running → 26 ≤ s.fetch.opcode.toNat →
    ¬ CompareHolds s.fetch.opcode (leftOf s.fetch s) (operandOf s.fetch s) →
    (s.instrAt (s.pc + 1)).opcode ∈ unknownOpcodes → ∃ t, step s = .next t ∧ t.pc = s.pc + 2)

/-- spec/30_encoding.md section 6, R104 (the spec's decision D9): executing an RR-form IMM, LOAD or STORE is fatal, and
the step that fetches one stops. -/
def Obligations.UndefinedFormsAreFatalWhenExecuted : Prop :=
  (∀ (rd rs : RegNum) (s : State),
    exec (.immRr rd rs) s = .fault (.undefinedForm 9#5 s.pc) ∧
    exec (.loadRr rd rs) s = .fault (.undefinedForm 12#5 s.pc) ∧
    exec (.storeRr rd rs) s = .fault (.undefinedForm 13#5 s.pc)) ∧
  (∀ s : State, s.Running → s.fetch.format = .rr →
    s.fetch.opcode = 9#5 ∨ s.fetch.opcode = 12#5 ∨ s.fetch.opcode = 13#5 →
    step s = .fault (.undefinedForm s.fetch.opcode s.pc))

/-- spec/60_exceptions.md sections 2 and 4 (R226, R229): an instruction faults in exactly these cases, and every other
execution answers a next state; nothing is refused. -/
def Obligations.ExecutionFaultsExactlyWhenFatal : Prop :=
  ∀ (i : Instr) (s : State),
    (∀ f : Fault, exec i s = .fault f ↔
      (i.opcode ∈ unknownOpcodes ∧ f = .unknownOpcode i.opcode s.pc) ∨
      (i.format = .rr ∧ (i.opcode = 9#5 ∨ i.opcode = 12#5 ∨ i.opcode = 13#5) ∧ f = .undefinedForm i.opcode s.pc) ∨
      (∃ (rd rs : RegNum) (m : Imm13), i = .load rd rs m ∧ effectiveAddress s rs m = 0xFFFF#16 ∧
        f = .busUnhandled 0xFFFF#16 false) ∨
      (∃ (rd rs : RegNum) (m : Imm13), i = .store rd rs m ∧ effectiveAddress s rs m = 0xFFFF#16 ∧
        f = .busUnhandled 0xFFFF#16 true)) ∧
    ((∃ f : Fault, exec i s = .fault f) ∨ ∃ t : State, exec i s = .next t)

/-! ### Whole-machine rules -/

/-- The step-boundary invariant holds at reset (R29, R32; the reset values are the spec's decisions D20, D21). -/
def Obligations.ResetIsAtAStepBoundary : Prop := State.reset.Boundary

/-- R29, R32 (marked derived by the spec), R229, and the canonical form of both memories: every step keeps the
step-boundary invariant, from every state that has it. -/
def Obligations.StepKeepsTheBoundaryInvariant : Prop :=
  ∀ s t : State, s.Boundary → step s = .next t → t.Boundary

/-- R133 (marked derived by the spec): all that a step can change. The one register is the instruction's destination, the
one RAM word is the effective address of a STORE, output comes only of a STORE to 0xFF00, `halt` and `error` only of HALT
and ERROR; program memory never changes. -/
def Obligations.StepChangesOnlyWhatItsInstructionNames : Prop :=
  ∀ s t : State, s.Boundary → s.Running → step s = .next t →
    (∀ q : RegNum, destinationOf s.fetch ≠ some q → t.reg q = s.reg q) ∧
    (∀ a : Word, t.pmem.read a = s.pmem.read a) ∧
    ((∀ (rd rs : RegNum) (m : Imm13), s.fetch ≠ .store rd rs m) →
      (∀ a : Word, t.ram.read a = s.ram.read a) ∧ t.out = s.out) ∧
    (∀ (rd rs : RegNum) (m : Imm13), s.fetch = .store rd rs m →
      (∀ a : Word, a ≠ effectiveAddress s rs m → t.ram.read a = s.ram.read a) ∧
      (effectiveAddress s rs m = 0xFF00#16 →
        t.ram.read 0xFF00#16 = s.ram.read 0xFF00#16 ∧ t.out = s.out ++ charBytes (s.reg rd)) ∧
      (effectiveAddress s rs m ≠ 0xFF00#16 → t.out = s.out)) ∧
    (t.halt = true ↔ ∃ rd rs : RegNum, s.fetch = .halt rd rs) ∧
    (t.error = true ↔ ∃ rd rs : RegNum, s.fetch = .error rd rs) ∧
    t.skip = false ∧ t.cycle = s.cycle + 1

/-- spec/10_state.md section 6: neither signal is ever cleared, and after the step in which one is set nothing runs. That a
step of a machine that has ended answers the same state is the model's choice (log 16), and the first two clauses have their
only cases there. -/
def Obligations.SignalsAreNeverCleared : Prop :=
  ∀ s t : State, step s = .next t →
    (s.halt = true → t.halt = true) ∧ (s.error = true → t.error = true) ∧
    (¬ t.Running → ∀ n : Nat, (run n t).2 = t)

/-- spec/10_state.md section 6 (R34, marked derived by the spec): no instruction reads the cycle counter, so shifting it
shifts the whole execution and changes nothing else. -/
def Obligations.CycleCounterIsNeverRead : Prop :=
  ∀ (s t : State) (k : Nat), step s = .next t →
    step { s with cycle := s.cycle + k } = .next { t with cycle := t.cycle + k }

/-- spec/60_exceptions.md section 8 (R236): the character device is write-only; what has been emitted influences nothing
that follows. -/
def Obligations.OutputIsNeverReadBack : Prop :=
  ∀ (s t : State) (earlier : List Byte), step s = .next t →
    step { s with out := earlier ++ s.out } = .next { t with out := earlier ++ t.out }

/-! ### Runs, reset and loading -/

/-- R122: a run that used up its budget continues as if it had had the larger budget, and a budget of one is a single
step. -/
def Obligations.RunIsResumable : Prop :=
  (∀ (a b : Nat) (s t : State), run a s = (.cycleLimitReached, t) → run (a + b) s = run b t) ∧
  (∀ s t : State, s.Running → step s = .next t → t.Running → run 1 s = (.cycleLimitReached, t))

/-- spec/40_step_and_operand.md section 1 (R120, R121, the spec's decision D19), spec/60_exceptions.md section 1: what each
outcome says of the state the run ended in; the budget bounds the executed steps, and no run is refused. -/
def Obligations.OutcomeDescribesTheLastState : Prop :=
  ∀ (n : Nat) (s t : State) (o : RunOutcome), run n s = (o, t) →
    (o = .halted ↔ t.halt = true) ∧
    (∀ c : Nat, o = .errored c → t.halt = false ∧ t.error = true ∧ c = (if t.reg 1 = 0 then 1 else (t.reg 1).toNat)) ∧
    (o = .cycleLimitReached → t.Running ∧ t.cycle = s.cycle + n) ∧
    (∀ f : Fault, o = .fatal f → t.Running ∧ step t = .fault f) ∧
    (∀ r : Refusal, o ≠ .refused r) ∧
    s.cycle ≤ t.cycle ∧ t.cycle ≤ s.cycle + n

/-- The machine right after reset, field by field (spec/70_reset_and_hazards.md section 1; all values are the spec's
decisions D20 and D21; assumption log 3, 4, 5). -/
def Obligations.ResetClearsTheMachine : Prop :=
  (∀ q : RegNum, State.reset.reg q = 0x0000#16) ∧ State.reset.pc = 0x0000#16 ∧ State.reset.skip = false ∧
  State.reset.latch = ⟨0x0000#16, false, false⟩ ∧ State.reset.halt = false ∧ State.reset.error = false ∧
  State.reset.cycle = 0 ∧ (∀ a : Word, State.reset.ram.read a = 0x0000#16) ∧
  (∀ a : Word, State.reset.instrAt a = .nop 0 0) ∧ State.reset.out = []

/-- R252: program load puts word `i` into slot `i`, and every slot beyond the program decodes to the all-zero word, a
harmless NOP; the first word is the first instruction fetched. -/
def Obligations.ProgramLoadFillsTheTable : Prop :=
  ∀ (programWords dataWords : List Word) (s : State), boot programWords dataWords = .ok s →
    (∀ a : Word, s.instrAt a = decode (programWords.getD a.toNat 0x0000#16)) ∧
    (∀ a : Word, programWords.length ≤ a.toNat → s.instrAt a = .nop 0 0) ∧
    s.fetch = decode (programWords.getD 0 0x0000#16)

/-- spec/70_reset_and_hazards.md section 2: the data pre-load writes word `i` directly into `ram[i]`, 0xFF00 and 0xFFFF
included, and emits no character; every word beyond the data reads 0x0000, which is the spec's decision D21 (log 3). -/
def Obligations.DataPreloadFillsRam : Prop :=
  ∀ (programWords dataWords : List Word) (s : State), boot programWords dataWords = .ok s →
    (∀ a : Word, s.ram.read a = dataWords.getD a.toNat 0x0000#16) ∧ s.out = []

/-- spec/70_reset_and_hazards.md section 2 (R254, the spec's decision D30): a launch is refused exactly if an input is
longer than 65536 words. -/
def Obligations.LaunchRefusesOversizedInputs : Prop :=
  ∀ (maxCycles : Nat) (programWords dataWords : List Word) (trace : Bool),
    (65536 < programWords.length → launch maxCycles programWords dataWords trace = .error .programTooLong) ∧
    (programWords.length ≤ 65536 → 65536 < dataWords.length →
      launch maxCycles programWords dataWords trace = .error .dataTooLong) ∧
    (programWords.length ≤ 65536 → dataWords.length ≤ 65536 →
      ∃ s, boot programWords dataWords = .ok s ∧ s.Boundary ∧
        launch maxCycles programWords dataWords trace = .ok (run maxCycles s))
end

