-- ==== Sys2Proof/Laws/Memory.lean ====
section
/-!
SUPPORT. The laws of a word-addressed memory: a read after a write, and every operation keeps the canonical form.
-/

namespace Sys2Proof.Machine

@[simp] theorem Memory.read_nil (a : Word) : Memory.read [] a = Config.blankWord := rfl

theorem Memory.read_cons (k : Nat) (v : Word) (m : Memory) (a : Word) :
    Memory.read ((k, v) :: m) a = if k = a.toNat then v else Memory.read m a := rfl

theorem Memory.wf_cons {k : Nat} {v : Word} {m : Memory} :
    Memory.wf ((k, v) :: m) = true ↔
      k < 65536 ∧ v ≠ Config.blankWord ∧ (∀ c ∈ m, k < c.1) ∧ Memory.wf m = true := by
  simp [Memory.wf, and_assoc]

/-- An address below every listed one is not listed. -/
theorem Memory.read_of_lt {m : Memory} {a : Word} (h : ∀ c ∈ m, a.toNat < c.1) : m.read a = Config.blankWord := by
  induction m with
  | nil => rfl
  | cons c m ih =>
    have hc : c.1 ≠ a.toNat := Nat.ne_of_gt (h c (by simp))
    rw [Memory.read_cons, if_neg hc]
    exact ih fun d hd => h d (by simp [hd])

/-- What one write puts in front. -/
theorem Memory.read_cell {m : Memory} {a : Word} (v : Word) (b : Word) (h : ∀ c ∈ m, a.toNat < c.1) :
    (Memory.cell a.toNat v m).read b = if b = a then v else m.read b := by
  unfold Memory.cell
  by_cases hb : b = a
  · subst hb
    by_cases hv : v = Config.blankWord
    · simp [hv, Memory.read_of_lt h]
    · simp [hv, Memory.read_cons]
  · have hne : a.toNat ≠ b.toNat := fun e => hb (BitVec.eq_of_toNat_eq e.symm)
    by_cases hv : v = Config.blankWord
    · simp [hv, hb]
    · simp [hv, hb, Memory.read_cons, hne]

/-- A write gives its address its value and leaves every other address alone. -/
theorem Memory.read_write {m : Memory} (h : m.wf = true) (a v b : Word) :
    (m.write a v).read b = if b = a then v else m.read b := by
  induction m with
  | nil =>
    rw [Memory.write, Memory.read_cell v b (by simp)]
  | cons c m ih =>
    obtain ⟨k, u⟩ := c
    obtain ⟨hk, hu, hlt, hm⟩ := Memory.wf_cons.1 h
    rw [Memory.write]
    by_cases hka : k = a.toNat
    · subst hka
      rw [if_pos rfl, Memory.read_cell v b hlt]
      by_cases hb : b = a
      · simp [hb]
      · have hne : a.toNat ≠ b.toNat := fun e => hb (BitVec.eq_of_toNat_eq e.symm)
        simp [hb, Memory.read_cons, hne]
    · rw [if_neg hka]
      by_cases hak : a.toNat < k
      · rw [if_pos hak, Memory.read_cell v b]
        intro c hc
        rcases List.mem_cons.1 hc with rfl | hc
        · exact hak
        · exact Nat.lt_trans hak (hlt c hc)
      · rw [if_neg hak, Memory.read_cons, Memory.read_cons, ih hm]
        by_cases hb : b = a
        · subst hb; simp [hka]
        · simp [hb]

theorem Memory.mem_cell {k : Nat} {v : Word} {m : Memory} {c : Nat × Word} (h : c ∈ Memory.cell k v m) :
    c = (k, v) ∨ c ∈ m := by
  unfold Memory.cell at h
  split at h
  · exact .inr h
  · simpa using h

theorem Memory.mem_write {m : Memory} {a v : Word} {c : Nat × Word} (h : c ∈ m.write a v) :
    c.1 = a.toNat ∨ c ∈ m := by
  induction m with
  | nil =>
    rcases Memory.mem_cell h with rfl | h
    · exact .inl rfl
    · exact .inr h
  | cons d m ih =>
    obtain ⟨k, u⟩ := d
    rw [Memory.write] at h
    split at h
    · rename_i hk
      rcases Memory.mem_cell h with rfl | h
      · exact .inl hk
      · exact .inr (by simp [h])
    · split at h
      · rcases Memory.mem_cell h with rfl | h
        · exact .inl rfl
        · exact .inr h
      · rcases List.mem_cons.1 h with rfl | h
        · exact .inr (by simp)
        · rcases ih h with h | h
          · exact .inl h
          · exact .inr (by simp [h])

theorem Memory.wf_cell {k : Nat} {v : Word} {m : Memory} (hk : k < 65536) (hlt : ∀ c ∈ m, k < c.1)
    (hm : m.wf = true) : (Memory.cell k v m).wf = true := by
  unfold Memory.cell
  split
  · exact hm
  · rename_i hv
    exact Memory.wf_cons.2 ⟨hk, hv, hlt, hm⟩

/-- A write keeps the canonical form. -/
theorem Memory.write_wf {m : Memory} (h : m.wf = true) (a v : Word) : (m.write a v).wf = true := by
  induction m with
  | nil => exact Memory.wf_cell a.isLt (by simp) rfl
  | cons c m ih =>
    obtain ⟨k, u⟩ := c
    obtain ⟨hk, hu, hlt, hm⟩ := Memory.wf_cons.1 h
    rw [Memory.write]
    split
    · exact Memory.wf_cell hk hlt hm
    · split
      · rename_i hne hak
        refine Memory.wf_cell a.isLt ?_ h
        intro c hc
        rcases List.mem_cons.1 hc with rfl | hc
        · exact hak
        · exact Nat.lt_trans hak (hlt c hc)
      · rename_i hne hak
        refine Memory.wf_cons.2 ⟨hk, hu, ?_, ih hm⟩
        intro c hc
        rcases Memory.mem_write hc with h1 | h1
        · omega
        · exact hlt c h1

/-- A load of consecutive words keeps the canonical form. -/
theorem Memory.load_wf {m : Memory} (h : m.wf = true) (a : Word) (ws : List Word) : (m.load a ws).wf = true := by
  induction ws generalizing m a with
  | nil => exact h
  | cons w ws ih => exact ih (Memory.write_wf h a w) (a + 1)

end Sys2Proof.Machine
end

