-- ==== Sys2Proof/Laws/State.lean ====
section
/-!
SUPPORT. What each named update of the state does to each field, one lemma per field and update, true by `rfl`; and the
two laws of the register file.
-/

namespace Sys2Proof.Machine

/-! ### setReg -/

@[simp] theorem State.setReg_pc (s : State) (r : RegNum) (v : Word) : (s.setReg r v).pc = s.pc := rfl
@[simp] theorem State.setReg_skip (s : State) (r : RegNum) (v : Word) : (s.setReg r v).skip = s.skip := rfl
@[simp] theorem State.setReg_latch (s : State) (r : RegNum) (v : Word) : (s.setReg r v).latch = s.latch := rfl
@[simp] theorem State.setReg_halt (s : State) (r : RegNum) (v : Word) : (s.setReg r v).halt = s.halt := rfl
@[simp] theorem State.setReg_error (s : State) (r : RegNum) (v : Word) : (s.setReg r v).error = s.error := rfl
@[simp] theorem State.setReg_cycle (s : State) (r : RegNum) (v : Word) : (s.setReg r v).cycle = s.cycle := rfl
@[simp] theorem State.setReg_pmem (s : State) (r : RegNum) (v : Word) : (s.setReg r v).pmem = s.pmem := rfl
@[simp] theorem State.setReg_ram (s : State) (r : RegNum) (v : Word) : (s.setReg r v).ram = s.ram := rfl
@[simp] theorem State.setReg_out (s : State) (r : RegNum) (v : Word) : (s.setReg r v).out = s.out := rfl

/-! ### setPc -/

@[simp] theorem State.setPc_regs (s : State) (t : Word) : (s.setPc t).regs = s.regs := rfl
@[simp] theorem State.setPc_pc (s : State) (t : Word) : (s.setPc t).pc = t := rfl
@[simp] theorem State.setPc_skip (s : State) (t : Word) : (s.setPc t).skip = s.skip := rfl
@[simp] theorem State.setPc_latch (s : State) (t : Word) : (s.setPc t).latch = s.latch := rfl
@[simp] theorem State.setPc_halt (s : State) (t : Word) : (s.setPc t).halt = s.halt := rfl
@[simp] theorem State.setPc_error (s : State) (t : Word) : (s.setPc t).error = s.error := rfl
@[simp] theorem State.setPc_cycle (s : State) (t : Word) : (s.setPc t).cycle = s.cycle := rfl
@[simp] theorem State.setPc_pmem (s : State) (t : Word) : (s.setPc t).pmem = s.pmem := rfl
@[simp] theorem State.setPc_ram (s : State) (t : Word) : (s.setPc t).ram = s.ram := rfl
@[simp] theorem State.setPc_out (s : State) (t : Word) : (s.setPc t).out = s.out := rfl
@[simp] theorem State.setPc_reg (s : State) (t : Word) (q : RegNum) : (s.setPc t).reg q = s.reg q := rfl

/-! ### setSkip -/

@[simp] theorem State.setSkip_regs (s : State) (b : Bool) : (s.setSkip b).regs = s.regs := rfl
@[simp] theorem State.setSkip_pc (s : State) (b : Bool) : (s.setSkip b).pc = s.pc := rfl
@[simp] theorem State.setSkip_skip (s : State) (b : Bool) : (s.setSkip b).skip = b := rfl
@[simp] theorem State.setSkip_latch (s : State) (b : Bool) : (s.setSkip b).latch = s.latch := rfl
@[simp] theorem State.setSkip_halt (s : State) (b : Bool) : (s.setSkip b).halt = s.halt := rfl
@[simp] theorem State.setSkip_error (s : State) (b : Bool) : (s.setSkip b).error = s.error := rfl
@[simp] theorem State.setSkip_cycle (s : State) (b : Bool) : (s.setSkip b).cycle = s.cycle := rfl
@[simp] theorem State.setSkip_pmem (s : State) (b : Bool) : (s.setSkip b).pmem = s.pmem := rfl
@[simp] theorem State.setSkip_ram (s : State) (b : Bool) : (s.setSkip b).ram = s.ram := rfl
@[simp] theorem State.setSkip_out (s : State) (b : Bool) : (s.setSkip b).out = s.out := rfl
@[simp] theorem State.setSkip_reg (s : State) (b : Bool) (q : RegNum) : (s.setSkip b).reg q = s.reg q := rfl

/-! ### setLatch -/

@[simp] theorem State.setLatch_regs (s : State) (l : Latch) : (s.setLatch l).regs = s.regs := rfl
@[simp] theorem State.setLatch_pc (s : State) (l : Latch) : (s.setLatch l).pc = s.pc := rfl
@[simp] theorem State.setLatch_skip (s : State) (l : Latch) : (s.setLatch l).skip = s.skip := rfl
@[simp] theorem State.setLatch_latch (s : State) (l : Latch) : (s.setLatch l).latch = l := rfl
@[simp] theorem State.setLatch_halt (s : State) (l : Latch) : (s.setLatch l).halt = s.halt := rfl
@[simp] theorem State.setLatch_error (s : State) (l : Latch) : (s.setLatch l).error = s.error := rfl
@[simp] theorem State.setLatch_cycle (s : State) (l : Latch) : (s.setLatch l).cycle = s.cycle := rfl
@[simp] theorem State.setLatch_pmem (s : State) (l : Latch) : (s.setLatch l).pmem = s.pmem := rfl
@[simp] theorem State.setLatch_ram (s : State) (l : Latch) : (s.setLatch l).ram = s.ram := rfl
@[simp] theorem State.setLatch_out (s : State) (l : Latch) : (s.setLatch l).out = s.out := rfl
@[simp] theorem State.setLatch_reg (s : State) (l : Latch) (q : RegNum) : (s.setLatch l).reg q = s.reg q := rfl

/-! ### setHalt -/

@[simp] theorem State.setHalt_regs (s : State) : s.setHalt.regs = s.regs := rfl
@[simp] theorem State.setHalt_pc (s : State) : s.setHalt.pc = s.pc := rfl
@[simp] theorem State.setHalt_skip (s : State) : s.setHalt.skip = s.skip := rfl
@[simp] theorem State.setHalt_latch (s : State) : s.setHalt.latch = s.latch := rfl
@[simp] theorem State.setHalt_halt (s : State) : s.setHalt.halt = true := rfl
@[simp] theorem State.setHalt_error (s : State) : s.setHalt.error = s.error := rfl
@[simp] theorem State.setHalt_cycle (s : State) : s.setHalt.cycle = s.cycle := rfl
@[simp] theorem State.setHalt_pmem (s : State) : s.setHalt.pmem = s.pmem := rfl
@[simp] theorem State.setHalt_ram (s : State) : s.setHalt.ram = s.ram := rfl
@[simp] theorem State.setHalt_out (s : State) : s.setHalt.out = s.out := rfl
@[simp] theorem State.setHalt_reg (s : State) (q : RegNum) : s.setHalt.reg q = s.reg q := rfl

/-! ### setError -/

@[simp] theorem State.setError_regs (s : State) : s.setError.regs = s.regs := rfl
@[simp] theorem State.setError_pc (s : State) : s.setError.pc = s.pc := rfl
@[simp] theorem State.setError_skip (s : State) : s.setError.skip = s.skip := rfl
@[simp] theorem State.setError_latch (s : State) : s.setError.latch = s.latch := rfl
@[simp] theorem State.setError_halt (s : State) : s.setError.halt = s.halt := rfl
@[simp] theorem State.setError_error (s : State) : s.setError.error = true := rfl
@[simp] theorem State.setError_cycle (s : State) : s.setError.cycle = s.cycle := rfl
@[simp] theorem State.setError_pmem (s : State) : s.setError.pmem = s.pmem := rfl
@[simp] theorem State.setError_ram (s : State) : s.setError.ram = s.ram := rfl
@[simp] theorem State.setError_out (s : State) : s.setError.out = s.out := rfl
@[simp] theorem State.setError_reg (s : State) (q : RegNum) : s.setError.reg q = s.reg q := rfl

/-! ### setRam -/

@[simp] theorem State.setRam_regs (s : State) (m : Memory) : (s.setRam m).regs = s.regs := rfl
@[simp] theorem State.setRam_pc (s : State) (m : Memory) : (s.setRam m).pc = s.pc := rfl
@[simp] theorem State.setRam_skip (s : State) (m : Memory) : (s.setRam m).skip = s.skip := rfl
@[simp] theorem State.setRam_latch (s : State) (m : Memory) : (s.setRam m).latch = s.latch := rfl
@[simp] theorem State.setRam_halt (s : State) (m : Memory) : (s.setRam m).halt = s.halt := rfl
@[simp] theorem State.setRam_error (s : State) (m : Memory) : (s.setRam m).error = s.error := rfl
@[simp] theorem State.setRam_cycle (s : State) (m : Memory) : (s.setRam m).cycle = s.cycle := rfl
@[simp] theorem State.setRam_pmem (s : State) (m : Memory) : (s.setRam m).pmem = s.pmem := rfl
@[simp] theorem State.setRam_ram (s : State) (m : Memory) : (s.setRam m).ram = m := rfl
@[simp] theorem State.setRam_out (s : State) (m : Memory) : (s.setRam m).out = s.out := rfl
@[simp] theorem State.setRam_reg (s : State) (m : Memory) (q : RegNum) : (s.setRam m).reg q = s.reg q := rfl

/-! ### emit -/

@[simp] theorem State.emit_regs (s : State) (bytes : List Byte) : (s.emit bytes).regs = s.regs := rfl
@[simp] theorem State.emit_pc (s : State) (bytes : List Byte) : (s.emit bytes).pc = s.pc := rfl
@[simp] theorem State.emit_skip (s : State) (bytes : List Byte) : (s.emit bytes).skip = s.skip := rfl
@[simp] theorem State.emit_latch (s : State) (bytes : List Byte) : (s.emit bytes).latch = s.latch := rfl
@[simp] theorem State.emit_halt (s : State) (bytes : List Byte) : (s.emit bytes).halt = s.halt := rfl
@[simp] theorem State.emit_error (s : State) (bytes : List Byte) : (s.emit bytes).error = s.error := rfl
@[simp] theorem State.emit_cycle (s : State) (bytes : List Byte) : (s.emit bytes).cycle = s.cycle := rfl
@[simp] theorem State.emit_pmem (s : State) (bytes : List Byte) : (s.emit bytes).pmem = s.pmem := rfl
@[simp] theorem State.emit_ram (s : State) (bytes : List Byte) : (s.emit bytes).ram = s.ram := rfl
@[simp] theorem State.emit_out (s : State) (bytes : List Byte) : (s.emit bytes).out = s.out ++ bytes := rfl
@[simp] theorem State.emit_reg (s : State) (bytes : List Byte) (q : RegNum) : (s.emit bytes).reg q = s.reg q := rfl

/-! ### countCycle -/

@[simp] theorem State.countCycle_regs (s : State) : s.countCycle.regs = s.regs := rfl
@[simp] theorem State.countCycle_pc (s : State) : s.countCycle.pc = s.pc := rfl
@[simp] theorem State.countCycle_skip (s : State) : s.countCycle.skip = s.skip := rfl
@[simp] theorem State.countCycle_latch (s : State) : s.countCycle.latch = s.latch := rfl
@[simp] theorem State.countCycle_halt (s : State) : s.countCycle.halt = s.halt := rfl
@[simp] theorem State.countCycle_error (s : State) : s.countCycle.error = s.error := rfl
@[simp] theorem State.countCycle_cycle (s : State) : s.countCycle.cycle = s.cycle + 1 := rfl
@[simp] theorem State.countCycle_pmem (s : State) : s.countCycle.pmem = s.pmem := rfl
@[simp] theorem State.countCycle_ram (s : State) : s.countCycle.ram = s.ram := rfl
@[simp] theorem State.countCycle_out (s : State) : s.countCycle.out = s.out := rfl
@[simp] theorem State.countCycle_reg (s : State) (q : RegNum) : s.countCycle.reg q = s.reg q := rfl

/-! ### placeWord -/

@[simp] theorem State.placeWord_regs (s : State) (w : Word) : (s.placeWord w).regs = s.regs := rfl
@[simp] theorem State.placeWord_pc (s : State) (w : Word) : (s.placeWord w).pc = s.pc := rfl
@[simp] theorem State.placeWord_skip (s : State) (w : Word) : (s.placeWord w).skip = s.skip := rfl
@[simp] theorem State.placeWord_latch (s : State) (w : Word) : (s.placeWord w).latch = s.latch := rfl
@[simp] theorem State.placeWord_halt (s : State) (w : Word) : (s.placeWord w).halt = false := rfl
@[simp] theorem State.placeWord_error (s : State) (w : Word) : (s.placeWord w).error = false := rfl
@[simp] theorem State.placeWord_cycle (s : State) (w : Word) : (s.placeWord w).cycle = s.cycle := rfl
@[simp] theorem State.placeWord_pmem (s : State) (w : Word) : (s.placeWord w).pmem = s.pmem.write s.pc w := rfl
@[simp] theorem State.placeWord_ram (s : State) (w : Word) : (s.placeWord w).ram = s.ram := rfl
@[simp] theorem State.placeWord_out (s : State) (w : Word) : (s.placeWord w).out = s.out := rfl
@[simp] theorem State.placeWord_reg (s : State) (w : Word) (q : RegNum) : (s.placeWord w).reg q = s.reg q := rfl

/-! ### Reading a register after writing one -/

/-- Every register reads back what was last written to it, and a write touches no other (R20). -/
theorem State.setReg_reg (s : State) (r : RegNum) (v : Word) (q : RegNum) :
    (s.setReg r v).reg q = if q = r then v else s.reg q := by
  unfold State.setReg State.reg
  simp only [Vector.getElem_set]
  by_cases h : q = r
  · subst h; simp
  · have hne : r.toNat ≠ q.toNat := fun e => h (BitVec.eq_of_toNat_eq e.symm)
    simp [h, hne]

@[simp] theorem State.setReg_reg_self (s : State) (r : RegNum) (v : Word) : (s.setReg r v).reg r = v := by
  simp [State.setReg_reg]

theorem State.setReg_reg_of_ne (s : State) {r q : RegNum} (v : Word) (h : q ≠ r) :
    (s.setReg r v).reg q = s.reg q := by
  simp [State.setReg_reg, h]

end Sys2Proof.Machine
end

