-- ==== Sys2Proof/Laws/Bus.lean ====
section
/-!
SUPPORT. What one bus transaction of this machine does: one lemma per primitive (spec/20_memory.md R60 to R66).
-/

namespace Sys2Proof.Machine

/-- A device's range, as an arithmetic condition (R55). -/
theorem Device.inRange_iff {σ : Type} (d : Device σ) (a : Word) :
    d.inRange a = true ↔ d.base.toNat ≤ a.toNat ∧ a.toNat - d.base.toNat < d.span := by
  simp [Device.inRange]

/-- What configuring a device can answer: the device asked for, with a legal span, or a refusal of an illegal one. -/
theorem Device.configure_ok {σ : Type} {base : Word} {span : Nat} {handler : σ → Word → Word → Bool → Option (σ × Word)}
    {d : Device σ} (h : Device.configure base span handler = .ok d) :
    d.base = base ∧ d.span = span ∧ d.handler = handler ∧ 1 ≤ span ∧ span ≤ 65536 := by
  unfold Device.configure at h
  split at h
  · cases h
    exact ⟨rfl, rfl, rfl, ‹_›⟩
  · cases h

theorem charOutDevice_inRange (a : Word) : charOutDevice.inRange a = decide (a = 0xFF00#16) := by
  have h : charOutDevice.inRange a = true ↔ 65280 ≤ a.toNat ∧ a.toNat - 65280 < 1 := Device.inRange_iff _ a
  rw [Bool.eq_iff_iff, h, decide_eq_true_iff, ← BitVec.toNat_inj]
  simp
  omega

theorem ramDevice_inRange (a : Word) : ramDevice.inRange a = decide (a ≠ 0xFFFF#16) := by
  have h : ramDevice.inRange a = true ↔ 0 ≤ a.toNat ∧ a.toNat - 0 < 65535 := Device.inRange_iff _ a
  have ha := a.isLt
  rw [Bool.eq_iff_iff, h, decide_eq_true_iff, ne_eq, ← BitVec.toNat_inj]
  simp
  omega

/-- A bus read is unhandled at 0xFFFF, and everywhere else answers the RAM word and changes nothing. -/
theorem memRead_eq (s : State) (a : Word) :
    memRead s a = if a = 0xFFFF#16 then none else some (s, s.ram.read a) := by
  simp only [memRead, devices, transact, charOutDevice_inRange, ramDevice_inRange]
  by_cases h1 : a = 0xFF00#16 <;> by_cases h2 : a = 0xFFFF#16 <;>
    simp_all [charOutDevice, charOutHandler, ramDevice, ramHandler, ramBase]

/-- A bus write is unhandled at 0xFFFF, emits at 0xFF00, and writes the RAM word everywhere else. -/
theorem memWrite_eq (s : State) (a v : Word) :
    memWrite s a v =
      if a = 0xFFFF#16 then none
      else if a = 0xFF00#16 then some (s.emit (charBytes v), v)
      else some (s.setRam (s.ram.write a v), v) := by
  simp only [memWrite, devices, transact, charOutDevice_inRange, ramDevice_inRange]
  by_cases h1 : a = 0xFF00#16 <;> by_cases h2 : a = 0xFFFF#16 <;>
    simp_all [charOutDevice, charOutHandler, ramDevice, ramHandler, ramBase]

end Sys2Proof.Machine
end

