-- ==== Sys2Proof/Laws/Ops.lean ====
section
/-!
SUPPORT. What each shared operation can do, said once: the memory access operations, the compare, items 4 to 6 of the
step, and the step itself. Later proofs cite these instead of unfolding the definitions.
-/

namespace Sys2Proof.Machine

/-- If a load answers a next state, its address is mapped and the state differs in the destination register alone. -/
theorem loadWord_next {rd : RegNum} {ea : Word} {s t : State} (h : loadWord rd ea s = .next t) :
    ea ≠ 0xFFFF#16 ∧ t = s.setReg rd (s.ram.read ea) := by
  unfold loadWord at h
  rw [memRead_eq] at h
  by_cases he : ea = 0xFFFF#16
  · simp [he, raiseFatal] at h
  · simp only [he, if_false, Host.Outcome.next.injEq] at h
    exact ⟨he, h.symm⟩

theorem loadWord_mapped (rd : RegNum) {ea : Word} (s : State) (h : ea ≠ 0xFFFF#16) :
    loadWord rd ea s = .next (s.setReg rd (s.ram.read ea)) := by
  simp [loadWord, memRead_eq, h]

theorem loadWord_unmapped (rd : RegNum) (s : State) :
    loadWord rd 0xFFFF#16 s = .fault (.busUnhandled 0xFFFF#16 false) := by
  simp [loadWord, memRead_eq, raiseFatal]

/-- If a store answers a next state, it emitted (at 0xFF00) or wrote one RAM word (at any other mapped address). -/
theorem storeWord_next {ea v : Word} {s t : State} (h : storeWord ea v s = .next t) :
    (ea = 0xFF00#16 ∧ t = s.emit (charBytes v)) ∨
      (ea ≠ 0xFF00#16 ∧ ea ≠ 0xFFFF#16 ∧ t = s.setRam (s.ram.write ea v)) := by
  unfold storeWord at h
  rw [memWrite_eq] at h
  by_cases he : ea = 0xFFFF#16
  · simp [he, raiseFatal] at h
  · by_cases hc : ea = 0xFF00#16
    · simp only [hc] at h
      simp at h
      exact .inl ⟨hc, h.symm⟩
    · simp only [he, hc, if_false, Host.Outcome.next.injEq] at h
      exact .inr ⟨hc, he, h.symm⟩

theorem storeWord_ram {ea : Word} (v : Word) (s : State) (h : ea ≠ 0xFFFF#16) (hc : ea ≠ 0xFF00#16) :
    storeWord ea v s = .next (s.setRam (s.ram.write ea v)) := by
  simp [storeWord, memWrite_eq, h, hc]

theorem storeWord_char (v : Word) (s : State) : storeWord 0xFF00#16 v s = .next (s.emit (charBytes v)) := by
  simp [storeWord, memWrite_eq]

theorem storeWord_unmapped (v : Word) (s : State) :
    storeWord 0xFFFF#16 v s = .fault (.busUnhandled 0xFFFF#16 true) := by
  simp [storeWord, memWrite_eq, raiseFatal]

/-- A compare changes the skip flag alone. -/
theorem skipUnless_eq (b : Bool) (s : State) : skipUnless b s = s.setSkip (if b then s.skip else true) := by
  cases b <;> rfl

/-! ### Items 4, 5 and 6 -/

/-- Item 4 changes the latch alone. -/
theorem State.decayLatch_eq (s : State) :
    s.decayLatch =
      s.setLatch (if s.latch.expireNext then ⟨s.latch.value, s.latch.valid, false⟩ else Latch.clear) := by
  unfold State.decayLatch
  cases h : s.latch.expireNext
  · simp [Latch.clear, h]
  · simp

/-- Item 5 changes the program counter and clears the skip flag. -/
theorem State.advancePc_eq (s : State) :
    s.advancePc =
      (s.setPc (if s.skip then (if s.isPrefixAt (s.pc + 1) then s.pc + 3 else s.pc + 2) else s.pc + 1)).setSkip
        false := by
  unfold State.advancePc
  cases h : s.skip
  · cases s; simp_all [State.setPc, State.setSkip]
  · have h2 : s.pc + 1#16 + 1#16 = s.pc + 2#16 := by rw [BitVec.add_assoc]; rfl
    have h3 : s.pc + 2#16 + 1#16 = s.pc + 3#16 := by rw [BitVec.add_assoc]; rfl
    simp [h2, h3]

theorem State.isPrefixAt_iff (s : State) (a : Word) : s.isPrefixAt a = true ↔ (s.instrAt a).opcode = 9#5 := by
  simp [State.isPrefixAt, Opc.imm]

@[simp] theorem State.isPrefixAt_setLatch (s : State) (l : Latch) (a : Word) :
    (s.setLatch l).isPrefixAt a = s.isPrefixAt a := rfl

@[simp] theorem State.finishStep_reg (s : State) (q : RegNum) : s.finishStep.reg q = s.reg q := by
  rw [State.finishStep, State.decayLatch_eq, State.advancePc_eq]; rfl

@[simp] theorem State.finishStep_regs (s : State) : s.finishStep.regs = s.regs := by
  rw [State.finishStep, State.decayLatch_eq, State.advancePc_eq]; rfl

@[simp] theorem State.finishStep_pc (s : State) :
    s.finishStep.pc =
      if s.skip then (if s.isPrefixAt (s.pc + 1) then s.pc + 3 else s.pc + 2) else s.pc + 1 := by
  rw [State.finishStep, State.decayLatch_eq, State.advancePc_eq]; rfl

@[simp] theorem State.finishStep_skip (s : State) : s.finishStep.skip = false := by
  rw [State.finishStep, State.decayLatch_eq, State.advancePc_eq]; rfl

@[simp] theorem State.finishStep_latch (s : State) :
    s.finishStep.latch =
      if s.latch.expireNext then ⟨s.latch.value, s.latch.valid, false⟩ else Latch.clear := by
  rw [State.finishStep, State.decayLatch_eq, State.advancePc_eq]; rfl

@[simp] theorem State.finishStep_halt (s : State) : s.finishStep.halt = s.halt := by
  rw [State.finishStep, State.decayLatch_eq, State.advancePc_eq]; rfl

@[simp] theorem State.finishStep_error (s : State) : s.finishStep.error = s.error := by
  rw [State.finishStep, State.decayLatch_eq, State.advancePc_eq]; rfl

@[simp] theorem State.finishStep_cycle (s : State) : s.finishStep.cycle = s.cycle + 1 := by
  rw [State.finishStep, State.decayLatch_eq, State.advancePc_eq]; rfl

@[simp] theorem State.finishStep_pmem (s : State) : s.finishStep.pmem = s.pmem := by
  rw [State.finishStep, State.decayLatch_eq, State.advancePc_eq]; rfl

@[simp] theorem State.finishStep_ram (s : State) : s.finishStep.ram = s.ram := by
  rw [State.finishStep, State.decayLatch_eq, State.advancePc_eq]; rfl

@[simp] theorem State.finishStep_out (s : State) : s.finishStep.out = s.out := by
  rw [State.finishStep, State.decayLatch_eq, State.advancePc_eq]; rfl

/-! ### The step -/

theorem step_ended {s : State} (h : s.ended = true) : step s = .next s := by simp [step, h]

/-- A running machine that executes its instruction completes the step. -/
theorem step_of_exec {s t : State} (h : s.ended = false) (he : exec s.fetch s = .next t) :
    step s = .next t.finishStep := by
  simp [step, h, he]

theorem step_of_fault {s : State} {f : Fault} (h : s.ended = false) (he : exec s.fetch s = .fault f) :
    step s = .fault f := by
  simp [step, h, he]

/-- What a step that answers a next state did: nothing, at the end of a run, or its instruction and items 4 to 6. -/
theorem step_next {s t : State} (h : step s = .next t) :
    (s.ended = true ∧ t = s) ∨ (s.ended = false ∧ ∃ u, exec s.fetch s = .next u ∧ t = u.finishStep) := by
  unfold step at h
  cases hs : s.ended
  · rw [hs] at h
    refine .inr ⟨rfl, ?_⟩
    cases he : exec s.fetch s with
    | next u => rw [he] at h; simp at h; exact ⟨u, rfl, h.symm⟩
    | fault f => rw [he] at h; simp at h
    | refused r => rw [he] at h; simp at h
  · rw [hs] at h
    simp at h
    exact .inl ⟨rfl, h.symm⟩

end Sys2Proof.Machine
end

