-- ==== Sys2Proof/Laws/Exec.lean ====
section
/-!
SUPPORT. Everything an instruction can do to the state, said once for all instructions: the invariants of the step are
derived from `exec_next`, not from the instructions one by one.
-/

namespace Sys2Proof.Machine

/-- The effects an executed instruction can have (R133): nothing, one register, the program counter, the link and the
program counter, the latch, a signal, the skip flag, one RAM word, or an output. -/
inductive Effect (s : State) : State → Prop where
  | nothing : Effect s s
  | register (r : RegNum) (v : Word) : Effect s (s.setReg r v)
  | jump (target : Word) : Effect s (s.setPc target)
  | link (target : Word) : Effect s (linkAndGo target s)
  | latch (v : Imm13) : Effect s (s.setLatch ⟨v.signExtend 16 <<< 4, true, true⟩)
  | halt : Effect s s.setHalt
  | error : Effect s s.setError
  | skip : Effect s (s.setSkip true)
  | store (ea v : Word) (hc : ea ≠ 0xFF00#16) (hm : ea ≠ 0xFFFF#16) : Effect s (s.setRam (s.ram.write ea v))
  | output (v : Word) : Effect s (s.emit (charBytes v))

theorem loadWord_effect {rd : RegNum} {ea : Word} {s t : State} (h : loadWord rd ea s = .next t) : Effect s t := by
  obtain ⟨-, rfl⟩ := loadWord_next h
  exact .register rd _

theorem storeWord_effect {ea v : Word} {s t : State} (h : storeWord ea v s = .next t) : Effect s t := by
  rcases storeWord_next h with ⟨-, rfl⟩ | ⟨hc, hm, rfl⟩
  · exact .output v
  · exact .store ea v hc hm

theorem compare_effect {b : Bool} {s t : State} (h : (.next (skipUnless b s) : Result) = .next t) : Effect s t := by
  cases b <;> cases h
  · exact .skip
  · exact .nothing

/-- Every executed instruction has one of these effects. -/
theorem exec_next {i : Instr} {s t : State} (h : exec i s = .next t) : Effect s t := by
  cases i
  case load rd rs m => exact loadWord_effect h
  case store rd rs m => exact storeWord_effect h
  case nop => cases h; exact .nothing
  case halt => cases h; exact .halt
  case error => cases h; exact .error
  case jumpRr => cases h; exact .jump _
  case jumpImm => cases h; exact .jump _
  case callRr => cases h; exact .link _
  case callImm => cases h; exact .link _
  case imm m => cases h; exact .latch m
  all_goals first
    | exact compare_effect h
    | (cases h; done)
    | (cases h; exact .register _ _)

end Sys2Proof.Machine
end

