-- ==== Sys2Proof/Laws/PerInstr.lean ====
section
/-!
SUPPORT. Statements about every instruction, one lemma per constructor. `EncodedFormat`: the word that the encoder writes
for an instruction selects the instruction's own format (spec/30_encoding.md R82, R110).
-/

namespace Sys2Proof.Laws

/-- The low bits of a concatenation are those of its last part. -/
theorem low_bits_append {m n k : Nat} (x : BitVec m) (y : BitVec n) (h : k ≤ n) :
    (x ++ y).extractLsb' 0 k = y.extractLsb' 0 k := by
  apply BitVec.eq_of_getLsbD_eq
  intro j hj
  have hn : j < n := by omega
  simp [hj, hn, BitVec.getLsbD_append]

theorem formatOfWord_encodeRr (op : BitVec 5) (rd rs : RegNum) : formatOfWord (encodeRr op rd rs) = .rr := by
  have h2 : (encodeRr op rd rs).extractLsb' 0 2 = discRr := low_bits_append _ discRr (by omega)
  simp [formatOfWord, h2]

theorem formatOfWord_encodeLs (op : BitVec 5) (rd rs : RegNum) (m : Imm13) :
    formatOfWord (encodeLs op rd rs m) = .ls := by
  have h2 : (encodeLs op rd rs m).extractLsb' 0 2 = discLs := low_bits_append _ discLs (by omega)
  simp [formatOfWord, h2, discLs, discRr]

theorem formatOfWord_encodeRi6 (op : BitVec 5) (rd : RegNum) (m : Imm13) :
    formatOfWord (encodeRi6 op rd m) = .ri6 := by
  have h2 : (encodeRi6 op rd m).extractLsb' 0 2 = discRi6 := low_bits_append _ discRi6 (by omega)
  simp [formatOfWord, h2, discRi6, discLs, discRr]

theorem formatOfWord_encodeRi8 (op : BitVec 5) (rd : RegNum) (m : Imm13) :
    formatOfWord (encodeRi8 op rd m) = .ri8 := by
  have h2 : (encodeRi8 op rd m).extractLsb' 0 2 = 0b11#2 := low_bits_append (n := 3) (k := 2) _ discRi8 (by omega)
  have h3 : (encodeRi8 op rd m).extractLsb' 0 3 = discRi8 := low_bits_append _ discRi8 (by omega)
  simp [formatOfWord, h2, h3, discRi6, discLs, discRr]

theorem formatOfWord_encodeI11 (op : BitVec 5) (m : Imm13) : formatOfWord (encodeI11 op m) = .i11 := by
  have h2 : (encodeI11 op m).extractLsb' 0 2 = 0b11#2 := low_bits_append (n := 4) (k := 2) _ discI11 (by omega)
  have h3 : (encodeI11 op m).extractLsb' 0 3 = 0b111#3 := low_bits_append (n := 4) (k := 3) _ discI11 (by omega)
  have h4 : (encodeI11 op m).extractLsb' 0 4 = discI11 := low_bits_append _ discI11 (by omega)
  simp [formatOfWord, h2, h3, h4, discRi8, discRi6, discLs, discRr]

theorem formatOfWord_encodeI12 (m : Imm13) : formatOfWord (encodeI12 m) = .i12 := by
  have h2 : (encodeI12 m).extractLsb' 0 2 = 0b11#2 := low_bits_append (n := 4) (k := 2) _ discI12 (by omega)
  have h3 : (encodeI12 m).extractLsb' 0 3 = 0b111#3 := low_bits_append (n := 4) (k := 3) _ discI12 (by omega)
  have h4 : (encodeI12 m).extractLsb' 0 4 = 0b1111#4 := low_bits_append (n := 4) (k := 4) _ discI12 (by omega)
  simp [formatOfWord, h2, h3, h4, discI11, discRi8, discRi6, discLs, discRr]

/-- The encoder's word selects the instruction's own format. -/
def EncodedFormat.Statement (i : Instr) : Prop := formatOfWord (encode i) = i.format

theorem EncodedFormat.nop (rd rs : RegNum) : EncodedFormat.Statement (.nop rd rs) :=
  formatOfWord_encodeRr _ _ _

theorem EncodedFormat.undef1Rr (rd rs : RegNum) : EncodedFormat.Statement (.undef1Rr rd rs) :=
  formatOfWord_encodeRr _ _ _

theorem EncodedFormat.error (rd rs : RegNum) : EncodedFormat.Statement (.error rd rs) :=
  formatOfWord_encodeRr _ _ _

theorem EncodedFormat.halt (rd rs : RegNum) : EncodedFormat.Statement (.halt rd rs) :=
  formatOfWord_encodeRr _ _ _

theorem EncodedFormat.undef4Rr (rd rs : RegNum) : EncodedFormat.Statement (.undef4Rr rd rs) :=
  formatOfWord_encodeRr _ _ _

theorem EncodedFormat.undef5Rr (rd rs : RegNum) : EncodedFormat.Statement (.undef5Rr rd rs) :=
  formatOfWord_encodeRr _ _ _

theorem EncodedFormat.moveRr (rd rs : RegNum) : EncodedFormat.Statement (.moveRr rd rs) :=
  formatOfWord_encodeRr _ _ _

theorem EncodedFormat.undef7Rr (rd rs : RegNum) : EncodedFormat.Statement (.undef7Rr rd rs) :=
  formatOfWord_encodeRr _ _ _

theorem EncodedFormat.jumpRr (rd rs : RegNum) : EncodedFormat.Statement (.jumpRr rd rs) :=
  formatOfWord_encodeRr _ _ _

theorem EncodedFormat.immRr (rd rs : RegNum) : EncodedFormat.Statement (.immRr rd rs) :=
  formatOfWord_encodeRr _ _ _

theorem EncodedFormat.callRr (rd rs : RegNum) : EncodedFormat.Statement (.callRr rd rs) :=
  formatOfWord_encodeRr _ _ _

theorem EncodedFormat.undef11Rr (rd rs : RegNum) : EncodedFormat.Statement (.undef11Rr rd rs) :=
  formatOfWord_encodeRr _ _ _

theorem EncodedFormat.loadRr (rd rs : RegNum) : EncodedFormat.Statement (.loadRr rd rs) :=
  formatOfWord_encodeRr _ _ _

theorem EncodedFormat.storeRr (rd rs : RegNum) : EncodedFormat.Statement (.storeRr rd rs) :=
  formatOfWord_encodeRr _ _ _

theorem EncodedFormat.undef14Rr (rd rs : RegNum) : EncodedFormat.Statement (.undef14Rr rd rs) :=
  formatOfWord_encodeRr _ _ _

theorem EncodedFormat.undef15Rr (rd rs : RegNum) : EncodedFormat.Statement (.undef15Rr rd rs) :=
  formatOfWord_encodeRr _ _ _

theorem EncodedFormat.addRr (rd rs : RegNum) : EncodedFormat.Statement (.addRr rd rs) :=
  formatOfWord_encodeRr _ _ _

theorem EncodedFormat.subRr (rd rs : RegNum) : EncodedFormat.Statement (.subRr rd rs) :=
  formatOfWord_encodeRr _ _ _

theorem EncodedFormat.undef18Rr (rd rs : RegNum) : EncodedFormat.Statement (.undef18Rr rd rs) :=
  formatOfWord_encodeRr _ _ _

theorem EncodedFormat.undef19Rr (rd rs : RegNum) : EncodedFormat.Statement (.undef19Rr rd rs) :=
  formatOfWord_encodeRr _ _ _

theorem EncodedFormat.xorRr (rd rs : RegNum) : EncodedFormat.Statement (.xorRr rd rs) :=
  formatOfWord_encodeRr _ _ _

theorem EncodedFormat.andRr (rd rs : RegNum) : EncodedFormat.Statement (.andRr rd rs) :=
  formatOfWord_encodeRr _ _ _

theorem EncodedFormat.orRr (rd rs : RegNum) : EncodedFormat.Statement (.orRr rd rs) :=
  formatOfWord_encodeRr _ _ _

theorem EncodedFormat.shlRr (rd rs : RegNum) : EncodedFormat.Statement (.shlRr rd rs) :=
  formatOfWord_encodeRr _ _ _

theorem EncodedFormat.shrRr (rd rs : RegNum) : EncodedFormat.Statement (.shrRr rd rs) :=
  formatOfWord_encodeRr _ _ _

theorem EncodedFormat.asrRr (rd rs : RegNum) : EncodedFormat.Statement (.asrRr rd rs) :=
  formatOfWord_encodeRr _ _ _

theorem EncodedFormat.ifEqRr (rd rs : RegNum) : EncodedFormat.Statement (.ifEqRr rd rs) :=
  formatOfWord_encodeRr _ _ _

theorem EncodedFormat.ifNeRr (rd rs : RegNum) : EncodedFormat.Statement (.ifNeRr rd rs) :=
  formatOfWord_encodeRr _ _ _

theorem EncodedFormat.ifLtRr (rd rs : RegNum) : EncodedFormat.Statement (.ifLtRr rd rs) :=
  formatOfWord_encodeRr _ _ _

theorem EncodedFormat.ifGeRr (rd rs : RegNum) : EncodedFormat.Statement (.ifGeRr rd rs) :=
  formatOfWord_encodeRr _ _ _

theorem EncodedFormat.ifUltRr (rd rs : RegNum) : EncodedFormat.Statement (.ifUltRr rd rs) :=
  formatOfWord_encodeRr _ _ _

theorem EncodedFormat.ifUgeRr (rd rs : RegNum) : EncodedFormat.Statement (.ifUgeRr rd rs) :=
  formatOfWord_encodeRr _ _ _

theorem EncodedFormat.load (rd rs : RegNum) (imm13 : Imm13) : EncodedFormat.Statement (.load rd rs imm13) :=
  formatOfWord_encodeLs _ _ _ _

theorem EncodedFormat.store (rd rs : RegNum) (imm13 : Imm13) : EncodedFormat.Statement (.store rd rs imm13) :=
  formatOfWord_encodeLs _ _ _ _

theorem EncodedFormat.undef14Ls (rd rs : RegNum) (imm13 : Imm13) : EncodedFormat.Statement (.undef14Ls rd rs imm13) :=
  formatOfWord_encodeLs _ _ _ _

theorem EncodedFormat.undef15Ls (rd rs : RegNum) (imm13 : Imm13) : EncodedFormat.Statement (.undef15Ls rd rs imm13) :=
  formatOfWord_encodeLs _ _ _ _

theorem EncodedFormat.addRi (rd : RegNum) (imm13 : Imm13) : EncodedFormat.Statement (.addRi rd imm13) :=
  formatOfWord_encodeRi6 _ _ _

theorem EncodedFormat.subRi (rd : RegNum) (imm13 : Imm13) : EncodedFormat.Statement (.subRi rd imm13) :=
  formatOfWord_encodeRi6 _ _ _

theorem EncodedFormat.undef18Ri (rd : RegNum) (imm13 : Imm13) : EncodedFormat.Statement (.undef18Ri rd imm13) :=
  formatOfWord_encodeRi6 _ _ _

theorem EncodedFormat.undef19Ri (rd : RegNum) (imm13 : Imm13) : EncodedFormat.Statement (.undef19Ri rd imm13) :=
  formatOfWord_encodeRi6 _ _ _

theorem EncodedFormat.xorRi (rd : RegNum) (imm13 : Imm13) : EncodedFormat.Statement (.xorRi rd imm13) :=
  formatOfWord_encodeRi6 _ _ _

theorem EncodedFormat.andRi (rd : RegNum) (imm13 : Imm13) : EncodedFormat.Statement (.andRi rd imm13) :=
  formatOfWord_encodeRi6 _ _ _

theorem EncodedFormat.orRi (rd : RegNum) (imm13 : Imm13) : EncodedFormat.Statement (.orRi rd imm13) :=
  formatOfWord_encodeRi6 _ _ _

theorem EncodedFormat.shlRi (rd : RegNum) (imm13 : Imm13) : EncodedFormat.Statement (.shlRi rd imm13) :=
  formatOfWord_encodeRi6 _ _ _

theorem EncodedFormat.shrRi (rd : RegNum) (imm13 : Imm13) : EncodedFormat.Statement (.shrRi rd imm13) :=
  formatOfWord_encodeRi6 _ _ _

theorem EncodedFormat.asrRi (rd : RegNum) (imm13 : Imm13) : EncodedFormat.Statement (.asrRi rd imm13) :=
  formatOfWord_encodeRi6 _ _ _

theorem EncodedFormat.ifEqRi (rd : RegNum) (imm13 : Imm13) : EncodedFormat.Statement (.ifEqRi rd imm13) :=
  formatOfWord_encodeRi6 _ _ _

theorem EncodedFormat.ifNeRi (rd : RegNum) (imm13 : Imm13) : EncodedFormat.Statement (.ifNeRi rd imm13) :=
  formatOfWord_encodeRi6 _ _ _

theorem EncodedFormat.ifLtRi (rd : RegNum) (imm13 : Imm13) : EncodedFormat.Statement (.ifLtRi rd imm13) :=
  formatOfWord_encodeRi6 _ _ _

theorem EncodedFormat.ifGeRi (rd : RegNum) (imm13 : Imm13) : EncodedFormat.Statement (.ifGeRi rd imm13) :=
  formatOfWord_encodeRi6 _ _ _

theorem EncodedFormat.ifUltRi (rd : RegNum) (imm13 : Imm13) : EncodedFormat.Statement (.ifUltRi rd imm13) :=
  formatOfWord_encodeRi6 _ _ _

theorem EncodedFormat.ifUgeRi (rd : RegNum) (imm13 : Imm13) : EncodedFormat.Statement (.ifUgeRi rd imm13) :=
  formatOfWord_encodeRi6 _ _ _

theorem EncodedFormat.moveRi (rd : RegNum) (imm13 : Imm13) : EncodedFormat.Statement (.moveRi rd imm13) :=
  formatOfWord_encodeRi8 _ _ _

theorem EncodedFormat.undef7Ri (rd : RegNum) (imm13 : Imm13) : EncodedFormat.Statement (.undef7Ri rd imm13) :=
  formatOfWord_encodeRi8 _ _ _

theorem EncodedFormat.jumpImm (imm13 : Imm13) : EncodedFormat.Statement (.jumpImm imm13) :=
  formatOfWord_encodeI11 _ _

theorem EncodedFormat.callImm (imm13 : Imm13) : EncodedFormat.Statement (.callImm imm13) :=
  formatOfWord_encodeI11 _ _

theorem EncodedFormat.imm (imm13 : Imm13) : EncodedFormat.Statement (.imm imm13) :=
  formatOfWord_encodeI12 _

end Sys2Proof.Laws
end

