-- ==== Sys2Proof/Tests/Slice0.lean ====
section
/-!
SUPPORT. The model's own tests: ill-formed terms, one word per decoder row, one step per instruction, and for every
statement with hypotheses a state and operands that meet them. Expected values are those of spec/95_test_vectors.md
(section named at each group) or are worked out from the rule named.
-/

namespace Sys2Proof.Tests

open Sys2Proof.Machine

/-! ### Helpers -/

/-- The reset machine with a program loaded from slot 0 and some registers set. -/
def loaded (words : List Word) (regs : List (RegNum × Word)) : State :=
  regs.foldl (fun s r => s.setReg r.1 r.2) (State.reset.loadProgram words)

/-- The same with one word of RAM set. -/
def loadedRam (words : List Word) (regs : List (RegNum × Word)) (a v : Word) : State :=
  (loaded words regs).setRam (Memory.write [] a v)

/-- The same with a valid latch. -/
def loadedLatch (words : List Word) (regs : List (RegNum × Word)) (value : Word) : State :=
  (loaded words regs).setLatch ⟨value, true, false⟩

/-- What one step gives, if it gives a next state. -/
def stepped (s : State) : Option State :=
  match step s with
  | .next t => some t
  | .fault _ | .refused _ => none

/-- A view of the state after one step. -/
def after {α : Type} (s : State) (view : State → α) : Option α := (stepped s).map view

/-- The fault of one step. -/
def faultOf (s : State) : Option Fault :=
  match step s with
  | .fault f => some f
  | .next _ | .refused _ => none

theorem exists_next {s : State} (p : State → Prop) [DecidablePred p] (h : (stepped s).any (fun t => decide (p t)) = true) :
    ∃ t, step s = .next t ∧ p t := by
  unfold stepped at h
  split at h
  · exact ⟨_, ‹_›, by simpa using h⟩
  · cases h
  · cases h

/-! ### Well-formedness refuses what a field cannot hold -/

theorem test_ill_formed_offset4 :
    Instr.wellFormed (.load 1 2 (16)) = false ∧
    Instr.wellFormed (.load 1 2 (-1)) = false := by decide

theorem test_well_formed_offset4 :
    Instr.wellFormed (.load 1 2 (15)) = true ∧
    Instr.wellFormed (.load 1 2 (0)) = true := by decide

theorem test_ill_formed_signed6 :
    Instr.wellFormed (.addRi 1 (32)) = false ∧
    Instr.wellFormed (.addRi 1 (-33)) = false := by decide

theorem test_well_formed_signed6 :
    Instr.wellFormed (.addRi 1 (31)) = true ∧
    Instr.wellFormed (.addRi 1 (-32)) = true := by decide

theorem test_ill_formed_signed8 :
    Instr.wellFormed (.moveRi 1 (128)) = false ∧
    Instr.wellFormed (.moveRi 1 (-129)) = false := by decide

theorem test_well_formed_signed8 :
    Instr.wellFormed (.moveRi 1 (127)) = true ∧
    Instr.wellFormed (.moveRi 1 (-128)) = true := by decide

theorem test_ill_formed_signed11 :
    Instr.wellFormed (.jumpImm (1024)) = false ∧
    Instr.wellFormed (.jumpImm (-1025)) = false := by decide

theorem test_well_formed_signed11 :
    Instr.wellFormed (.jumpImm (1023)) = true ∧
    Instr.wellFormed (.jumpImm (-1024)) = true := by decide

theorem test_ill_formed_signed12 :
    Instr.wellFormed (.imm (2048)) = false ∧
    Instr.wellFormed (.imm (-2049)) = false := by decide

theorem test_well_formed_signed12 :
    Instr.wellFormed (.imm (2047)) = true ∧
    Instr.wellFormed (.imm (-2048)) = true := by decide

/-! ### One word per row, written out from the layouts of R83 to R88, decoded and encoded back -/

theorem test_decode_nop :
    decode 0b0000000000000000#16 = .nop 0 0 ∧
    encode (.nop 0 0) = 0b0000000000000000#16 := by decide

theorem test_decode_undef1Rr :
    decode 0b1010101100000100#16 = .undef1Rr 10 11 ∧
    encode (.undef1Rr 10 11) = 0b1010101100000100#16 := by decide

theorem test_decode_error :
    decode 0b0000000000001000#16 = .error 0 0 ∧
    encode (.error 0 0) = 0b0000000000001000#16 := by decide

theorem test_decode_halt :
    decode 0b1010101100001100#16 = .halt 10 11 ∧
    encode (.halt 10 11) = 0b1010101100001100#16 := by decide

theorem test_decode_undef4Rr :
    decode 0b0000000000010000#16 = .undef4Rr 0 0 ∧
    encode (.undef4Rr 0 0) = 0b0000000000010000#16 := by decide

theorem test_decode_undef5Rr :
    decode 0b1010101100010100#16 = .undef5Rr 10 11 ∧
    encode (.undef5Rr 10 11) = 0b1010101100010100#16 := by decide

theorem test_decode_moveRr :
    decode 0b0001001000011000#16 = .moveRr 1 2 ∧
    encode (.moveRr 1 2) = 0b0001001000011000#16 := by decide

theorem test_decode_undef7Rr :
    decode 0b1010101100011100#16 = .undef7Rr 10 11 ∧
    encode (.undef7Rr 10 11) = 0b1010101100011100#16 := by decide

theorem test_decode_jumpRr :
    decode 0b0000010000100000#16 = .jumpRr 0 4 ∧
    encode (.jumpRr 0 4) = 0b0000010000100000#16 := by decide

theorem test_decode_immRr :
    decode 0b1010101100100100#16 = .immRr 10 11 ∧
    encode (.immRr 10 11) = 0b1010101100100100#16 := by decide

theorem test_decode_callRr :
    decode 0b0000010100101000#16 = .callRr 0 5 ∧
    encode (.callRr 0 5) = 0b0000010100101000#16 := by decide

theorem test_decode_undef11Rr :
    decode 0b1010101100101100#16 = .undef11Rr 10 11 ∧
    encode (.undef11Rr 10 11) = 0b1010101100101100#16 := by decide

theorem test_decode_loadRr :
    decode 0b0000000000110000#16 = .loadRr 0 0 ∧
    encode (.loadRr 0 0) = 0b0000000000110000#16 := by decide

theorem test_decode_storeRr :
    decode 0b1010101100110100#16 = .storeRr 10 11 ∧
    encode (.storeRr 10 11) = 0b1010101100110100#16 := by decide

theorem test_decode_undef14Rr :
    decode 0b0000000000111000#16 = .undef14Rr 0 0 ∧
    encode (.undef14Rr 0 0) = 0b0000000000111000#16 := by decide

theorem test_decode_undef15Rr :
    decode 0b1010101100111100#16 = .undef15Rr 10 11 ∧
    encode (.undef15Rr 10 11) = 0b1010101100111100#16 := by decide

theorem test_decode_addRr :
    decode 0b0001001001000000#16 = .addRr 1 2 ∧
    encode (.addRr 1 2) = 0b0001001001000000#16 := by decide

theorem test_decode_subRr :
    decode 0b0001001001000100#16 = .subRr 1 2 ∧
    encode (.subRr 1 2) = 0b0001001001000100#16 := by decide

theorem test_decode_undef18Rr :
    decode 0b0001001001001000#16 = .undef18Rr 1 2 ∧
    encode (.undef18Rr 1 2) = 0b0001001001001000#16 := by decide

theorem test_decode_undef19Rr :
    decode 0b0001001001001100#16 = .undef19Rr 1 2 ∧
    encode (.undef19Rr 1 2) = 0b0001001001001100#16 := by decide

theorem test_decode_xorRr :
    decode 0b0001001001010000#16 = .xorRr 1 2 ∧
    encode (.xorRr 1 2) = 0b0001001001010000#16 := by decide

theorem test_decode_andRr :
    decode 0b0001001001010100#16 = .andRr 1 2 ∧
    encode (.andRr 1 2) = 0b0001001001010100#16 := by decide

theorem test_decode_orRr :
    decode 0b0001001001011000#16 = .orRr 1 2 ∧
    encode (.orRr 1 2) = 0b0001001001011000#16 := by decide

theorem test_decode_shlRr :
    decode 0b0001001001011100#16 = .shlRr 1 2 ∧
    encode (.shlRr 1 2) = 0b0001001001011100#16 := by decide

theorem test_decode_shrRr :
    decode 0b0001001001100000#16 = .shrRr 1 2 ∧
    encode (.shrRr 1 2) = 0b0001001001100000#16 := by decide

theorem test_decode_asrRr :
    decode 0b0001001001100100#16 = .asrRr 1 2 ∧
    encode (.asrRr 1 2) = 0b0001001001100100#16 := by decide

theorem test_decode_ifEqRr :
    decode 0b0001001001101000#16 = .ifEqRr 1 2 ∧
    encode (.ifEqRr 1 2) = 0b0001001001101000#16 := by decide

theorem test_decode_ifNeRr :
    decode 0b0001001001101100#16 = .ifNeRr 1 2 ∧
    encode (.ifNeRr 1 2) = 0b0001001001101100#16 := by decide

theorem test_decode_ifLtRr :
    decode 0b0001001001110000#16 = .ifLtRr 1 2 ∧
    encode (.ifLtRr 1 2) = 0b0001001001110000#16 := by decide

theorem test_decode_ifGeRr :
    decode 0b0001001001110100#16 = .ifGeRr 1 2 ∧
    encode (.ifGeRr 1 2) = 0b0001001001110100#16 := by decide

theorem test_decode_ifUltRr :
    decode 0b0001001001111000#16 = .ifUltRr 1 2 ∧
    encode (.ifUltRr 1 2) = 0b0001001001111000#16 := by decide

theorem test_decode_ifUgeRr :
    decode 0b0001001001111100#16 = .ifUgeRr 1 2 ∧
    encode (.ifUgeRr 1 2) = 0b0001001001111100#16 := by decide

theorem test_decode_load :
    decode 0b0011001000110001#16 = .load 3 2 3 ∧
    encode (.load 3 2 3) = 0b0011001000110001#16 := by decide

theorem test_decode_store :
    decode 0b0101011011110101#16 = .store 5 6 15 ∧
    encode (.store 5 6 15) = 0b0101011011110101#16 := by decide

theorem test_decode_undef14Ls :
    decode 0b0001001000001001#16 = .undef14Ls 1 2 0 ∧
    encode (.undef14Ls 1 2 0) = 0b0001001000001001#16 := by decide

theorem test_decode_undef15Ls :
    decode 0b1111111111111101#16 = .undef15Ls 15 15 15 ∧
    encode (.undef15Ls 15 15 15) = 0b1111111111111101#16 := by decide

theorem test_decode_addRi :
    decode 0b0001100000000010#16 = .addRi 1 (-32) ∧
    encode (.addRi 1 (-32)) = 0b0001100000000010#16 := by decide

theorem test_decode_subRi :
    decode 0b0010011111000110#16 = .subRi 2 31 ∧
    encode (.subRi 2 31) = 0b0010011111000110#16 := by decide

theorem test_decode_undef18Ri :
    decode 0b1111111111001010#16 = .undef18Ri 15 (-1) ∧
    encode (.undef18Ri 15 (-1)) = 0b1111111111001010#16 := by decide

theorem test_decode_undef19Ri :
    decode 0b0111000101001110#16 = .undef19Ri 7 5 ∧
    encode (.undef19Ri 7 5) = 0b0111000101001110#16 := by decide

theorem test_decode_xorRi :
    decode 0b0001100000010010#16 = .xorRi 1 (-32) ∧
    encode (.xorRi 1 (-32)) = 0b0001100000010010#16 := by decide

theorem test_decode_andRi :
    decode 0b0010011111010110#16 = .andRi 2 31 ∧
    encode (.andRi 2 31) = 0b0010011111010110#16 := by decide

theorem test_decode_orRi :
    decode 0b1111111111011010#16 = .orRi 15 (-1) ∧
    encode (.orRi 15 (-1)) = 0b1111111111011010#16 := by decide

theorem test_decode_shlRi :
    decode 0b0111000101011110#16 = .shlRi 7 5 ∧
    encode (.shlRi 7 5) = 0b0111000101011110#16 := by decide

theorem test_decode_shrRi :
    decode 0b0001100000100010#16 = .shrRi 1 (-32) ∧
    encode (.shrRi 1 (-32)) = 0b0001100000100010#16 := by decide

theorem test_decode_asrRi :
    decode 0b0010011111100110#16 = .asrRi 2 31 ∧
    encode (.asrRi 2 31) = 0b0010011111100110#16 := by decide

theorem test_decode_ifEqRi :
    decode 0b1111111111101010#16 = .ifEqRi 15 (-1) ∧
    encode (.ifEqRi 15 (-1)) = 0b1111111111101010#16 := by decide

theorem test_decode_ifNeRi :
    decode 0b0111000101101110#16 = .ifNeRi 7 5 ∧
    encode (.ifNeRi 7 5) = 0b0111000101101110#16 := by decide

theorem test_decode_ifLtRi :
    decode 0b0001100000110010#16 = .ifLtRi 1 (-32) ∧
    encode (.ifLtRi 1 (-32)) = 0b0001100000110010#16 := by decide

theorem test_decode_ifGeRi :
    decode 0b0010011111110110#16 = .ifGeRi 2 31 ∧
    encode (.ifGeRi 2 31) = 0b0010011111110110#16 := by decide

theorem test_decode_ifUltRi :
    decode 0b1111111111111010#16 = .ifUltRi 15 (-1) ∧
    encode (.ifUltRi 15 (-1)) = 0b1111111111111010#16 := by decide

theorem test_decode_ifUgeRi :
    decode 0b0111000101111110#16 = .ifUgeRi 7 5 ∧
    encode (.ifUgeRi 7 5) = 0b0111000101111110#16 := by decide

theorem test_decode_moveRi :
    decode 0b0001100000000011#16 = .moveRi 1 (-128) ∧
    encode (.moveRi 1 (-128)) = 0b0001100000000011#16 := by decide

theorem test_decode_undef7Ri :
    decode 0b1001011111111011#16 = .undef7Ri 9 127 ∧
    encode (.undef7Ri 9 127) = 0b1001011111111011#16 := by decide

theorem test_decode_jumpImm :
    decode 0b1000000000000111#16 = .jumpImm (-1024) ∧
    encode (.jumpImm (-1024)) = 0b1000000000000111#16 := by decide

theorem test_decode_callImm :
    decode 0b0111111111110111#16 = .callImm 1023 ∧
    encode (.callImm 1023) = 0b0111111111110111#16 := by decide

theorem test_decode_imm :
    decode 0b0001001000111111#16 = .imm 291 ∧
    encode (.imm 291) = 0b0001001000111111#16 := by decide

theorem test_decode_ignores_bit7 : decode 0x0080#16 = .nop 0 0 := by decide

theorem test_decode_table_word : decodeTableWord 16 0x1240 = some (.addRr 1 2) ∧ decodeTableWord 17 0 = none := by
  decide

theorem test_decode_words_of_nothing : decodeWords [] = .error .noWord := by rfl

theorem test_with_fetch_word : (State.reset.withFetchWord 16 0x1240).fetch = .addRr 1 2 := by decide

/-! ### Control (95_test_vectors.md section 4) -/

theorem test_nop : after (loaded [0x0000] [(1, 7)]) (fun t => (t.pc, t.cycle, t.reg 1)) = some (1, 1, 7) := by decide

theorem test_jump_register_wraps : after (loaded [0x0420] [(4, 0xFFFF)]) (·.pc) = some 0x0000 := by decide

theorem test_jump_register : after (loaded [0x0420] [(4, 0x0010)]) (·.pc) = some 0x0011 := by decide

theorem test_jump_back : after (loaded [0xFFE7] []) (·.pc) = some 0x0000 := by decide

theorem test_jump_with_latch : after (loadedLatch [0x0087] [] 0x1230) (·.pc) = some 0x1235 := by decide

theorem test_call_immediate :
    after (loaded [0x0097] [(0, 0xAAAA)]) (fun t => (t.reg 0, t.pc)) = some (0x0000, 0x0005) := by decide

theorem test_call_register_zero :
    after ((loaded [0x0000, 0x0028] [(0, 0x0030)]).setPc 1) (fun t => (t.reg 0, t.pc)) = some (0x0001, 0x0031) := by
  decide

theorem test_call_register :
    after ((loaded [0x0000, 0x0528] [(5, 0x0020)]).setPc 1) (fun t => (t.reg 0, t.pc)) = some (0x0001, 0x0021) := by
  decide

theorem test_halt : after (loaded [0xAB0C] [(1, 0x1234)]) (fun t => (t.status, t.reg 1)) = some (.halted, 0x1234) := by
  decide

theorem test_error :
    after (loaded [0x0008] [(1, 0xFFFF)]) (fun t => (t.status, t.errorExitCode)) = some (.errored, 65535) := by decide

theorem test_error_zero : after (loaded [0x0008] []) (·.errorExitCode) = some 1 := by decide

theorem test_halt_wins_over_the_budget : (run 1 (loaded [0x000C] [])).1 = .halted := by decide

theorem test_budget_zero : (run 0 (loaded [0x000C] [])).1 = .cycleLimitReached := by decide

/-! ### Immediate extension and MOVE (sections 3 and 5) -/

theorem test_imm_loads_latch : after (loaded [0x800F] []) (·.latch) = some ⟨0x8000, true, false⟩ := by decide

theorem test_imm_replaces_latch :
    after (loadedLatch [0x222F] [] 0x1110) (·.latch) = some ⟨0x2220, true, false⟩ := by decide

theorem test_move_immediate_sign : after (loaded [0x1803] []) (·.reg 1) = some 0xFF80 := by decide

theorem test_move_immediate_with_latch :
    after (loadedLatch [0x1743] [] 0x1230) (fun t => (t.reg 1, t.latch)) = some (0x1234, Latch.clear) := by decide

theorem test_move_register_ignores_latch :
    after (loadedLatch [0x1218] [(2, 9)] 0x1230) (fun t => (t.reg 1, t.latch)) = some (9, Latch.clear) := by decide

theorem test_move_register : after (loaded [0xFE18] [(14, 0xBEEF)]) (·.reg 15) = some 0xBEEF := by decide

theorem test_operand_ls_zero_extended : operandImm State.reset 15 = 0x000F := by decide

theorem test_operand_latch_low_nibble : operandImm (loadedLatch [] [] 0x0100) (-4) = 0x010C := by decide

/-! ### LOAD, STORE and the bus (section 6, and 1.8 for the dispatcher) -/

theorem test_store_wraps :
    after (loaded [0x56F5] [(5, 0xAAAA), (6, 0xFFF8)]) (·.ram) = some [(0x07, 0xAAAA)] := by decide

theorem test_bus_unmapped :
    (memWrite State.reset 0xFFFF 0x1234).isNone = true ∧ (memWrite State.reset 0xFFFE 0x1234).isNone = false := by decide

theorem test_store_character :
    after (loaded [0x1205] [(1, 0x0141), (2, 0xFF00)]) (fun t => (t.out, t.ram)) = some ([0x41], []) := by decide

theorem test_load_into_base : after (loadedRam [0x2211] [(2, 0x0100)] 0x0101 0xCAFE) (·.reg 2) = some 0xCAFE := by
  decide

theorem test_bus_read_of_character_address :
    (memRead (loadedRam [] [] 0xFF00 0x7777) 0xFF00).map (fun r => (r.1.out, r.2)) = some ([], 0x7777) := by decide

theorem test_load_unmapped : faultOf (loaded [0x1211] [(2, 0xFFFE)]) = some (.busUnhandled 0xFFFF false) := by decide

/-- Section 1.8's device A over a pair of (log of A, array of B). -/
def deviceA : Device (List Word × Memory) where
  base := 0x0010
  span := 4
  handler := fun st _ data isWrite => if isWrite then some ((st.1 ++ [data], st.2), data) else none

/-- Section 1.8's device B. -/
def deviceB : Device (List Word × Memory) where
  base := 0x0000
  span := 0x0100
  handler := fun st address data isWrite =>
    if isWrite then some ((st.1, st.2.write address data), data) else some (st, st.2.read address)

/-- Section 1.8's device list. -/
def twoDevices : List (Device (List Word × Memory)) := [deviceA, deviceB]

theorem test_dispatcher_writes :
    transact twoDevices ([], []) 0x0012 0x00AA true = some (([0x00AA], []), 0x00AA) ∧
    transact twoDevices ([], []) 0x0014 0x00BB true = some (([], [(0x14, 0x00BB)]), 0x00BB) := by decide

theorem test_dispatcher_reads :
    transact twoDevices ([], [(0x12, 0x0077)]) 0x0012 0x0000 false = some (([], [(0x12, 0x0077)]), 0x0077) ∧
    transact twoDevices ([], []) 0x0100 0x0000 false = none := by decide

/-- The smallest and the largest legal span are accepted, and their neighbours refused (R54, U15). -/
theorem test_device_span :
    (Device.configure 0xFFFF 1 ramHandler).isOk = true ∧ (Device.configure 0xFFFF 65536 ramHandler).isOk = true ∧
    (Device.configure 0x0000 0 ramHandler).isOk = false ∧ (Device.configure 0x0000 65537 ramHandler).isOk = false := by
  decide

/-! ### Arithmetic, bitwise and shift (section 7) -/

theorem test_add_register_wraps :
    after (loaded [0x1240] [(1, 0xFFFF), (2, 0x0001)]) (·.reg 1) = some 0x0000 := by decide

theorem test_sub_register_borrows :
    after (loaded [0x1244] [(1, 0x0000), (2, 0x0001)]) (·.reg 1) = some 0xFFFF := by decide

theorem test_xor_register :
    after (loaded [0x1250] [(1, 0xFF00), (2, 0x0FF0)]) (·.reg 1) = some 0xF0F0 := by decide

theorem test_and_register :
    after (loaded [0x1254] [(1, 0xFF00), (2, 0x0FF0)]) (·.reg 1) = some 0x0F00 := by decide

theorem test_or_register :
    after (loaded [0x1258] [(1, 0xFF00), (2, 0x0FF0)]) (·.reg 1) = some 0xFFF0 := by decide

theorem test_shl_register_masks_amount :
    after (loaded [0x125C] [(1, 0x0001), (2, 0xFFFF)]) (·.reg 1) = some 0x8000 := by decide

theorem test_shl_register_loses_bit :
    after (loaded [0x125C] [(1, 0x8001), (2, 0x0001)]) (·.reg 1) = some 0x0002 := by decide

theorem test_shr_register_masks_amount :
    after (loaded [0x1260] [(1, 0xFFFF), (2, 0x0014)]) (·.reg 1) = some 0x0FFF := by decide

theorem test_shr_register_zero_fill :
    after (loaded [0x1260] [(1, 0x8000), (2, 0x000F)]) (·.reg 1) = some 0x0001 := by decide

theorem test_asr_register_floors :
    after (loaded [0x1264] [(1, 0xFFF1), (2, 0x0002)]) (·.reg 1) = some 0xFFFC := by decide

theorem test_asr_register_masks_amount :
    after (loaded [0x1264] [(1, 0x8000), (2, 0xFFF1)]) (·.reg 1) = some 0xC000 := by decide

theorem test_add_immediate :
    after (loaded [0x1802] [(1, 0x0020), (2, 0x0000)]) (·.reg 1) = some 0x0000 := by decide

theorem test_sub_immediate :
    after (loaded [0x1FC6] [(1, 0x0000), (2, 0x0000)]) (·.reg 1) = some 0x0001 := by decide

theorem test_xor_immediate :
    after (loaded [0x1FD2] [(1, 0x00FF), (2, 0x0000)]) (·.reg 1) = some 0xFF00 := by decide

theorem test_and_immediate :
    after (loaded [0x1C16] [(1, 0x1234), (2, 0x0000)]) (·.reg 1) = some 0x1230 := by decide

theorem test_or_immediate :
    after (loaded [0x181A] [(1, 0x1200), (2, 0x0000)]) (·.reg 1) = some 0xFFE0 := by decide

theorem test_shl_immediate :
    after (loaded [0x17DE] [(1, 0x0001), (2, 0x0000)]) (·.reg 1) = some 0x8000 := by decide

theorem test_shr_immediate :
    after (loaded [0x1BE2] [(1, 0x8000), (2, 0x0000)]) (·.reg 1) = some 0x0001 := by decide

theorem test_asr_immediate :
    after (loaded [0x1926] [(1, 0xF000), (2, 0x0000)]) (·.reg 1) = some 0xFF00 := by decide

theorem test_sub_same_register :
    after (loaded [0x1144] [(1, 0x1234), (2, 0x0000)]) (·.reg 1) = some 0x0000 := by decide

/-! ### Compare and skip (section 8): the pc after the compare says whether slot 1 is skipped -/

theorem test_if_eq_register_true :
    after (loaded [0x1268, 0x3013] [(1, 0xFFFF), (2, 0xFFFF)]) (·.pc) = some 1 := by decide

theorem test_if_eq_register_false :
    after (loaded [0x1268, 0x3013] [(1, 0x0001), (2, 0x0002)]) (·.pc) = some 2 := by decide

theorem test_if_ne_register_false :
    after (loaded [0x126C, 0x3013] [(1, 0x0000), (2, 0x0000)]) (·.pc) = some 2 := by decide

theorem test_if_ne_register_true :
    after (loaded [0x126C, 0x3013] [(1, 0x0001), (2, 0x0002)]) (·.pc) = some 1 := by decide

theorem test_if_lt_register_signed :
    after (loaded [0x1270, 0x3013] [(1, 0x8000), (2, 0x7FFF)]) (·.pc) = some 1 := by decide

theorem test_if_lt_register_equal :
    after (loaded [0x1270, 0x3013] [(1, 0x0000), (2, 0x0000)]) (·.pc) = some 2 := by decide

theorem test_if_ge_register_signed :
    after (loaded [0x1274, 0x3013] [(1, 0x8000), (2, 0x0000)]) (·.pc) = some 2 := by decide

theorem test_if_ge_register_equal :
    after (loaded [0x1274, 0x3013] [(1, 0x0000), (2, 0x0000)]) (·.pc) = some 1 := by decide

theorem test_if_ult_register_unsigned :
    after (loaded [0x1278, 0x3013] [(1, 0x8000), (2, 0x7FFF)]) (·.pc) = some 2 := by decide

theorem test_if_ult_register_true :
    after (loaded [0x1278, 0x3013] [(1, 0x0001), (2, 0xFFFF)]) (·.pc) = some 1 := by decide

theorem test_if_uge_register_unsigned :
    after (loaded [0x127C, 0x3013] [(1, 0xFFFF), (2, 0x0001)]) (·.pc) = some 1 := by decide

theorem test_if_uge_register_false :
    after (loaded [0x127C, 0x3013] [(1, 0x0001), (2, 0x0002)]) (·.pc) = some 2 := by decide

theorem test_if_eq_immediate :
    after (loaded [0x1FEA, 0x3013] [(1, 0xFFFF), (2, 0x0000)]) (·.pc) = some 1 := by decide

theorem test_if_ne_immediate :
    after (loaded [0x102E, 0x3013] [(1, 0x0000), (2, 0x0000)]) (·.pc) = some 2 := by decide

theorem test_if_lt_immediate :
    after (loaded [0x1872, 0x3013] [(1, 0xFFE0), (2, 0x0000)]) (·.pc) = some 1 := by decide

theorem test_if_ge_immediate :
    after (loaded [0x1836, 0x3013] [(1, 0x8000), (2, 0x0000)]) (·.pc) = some 2 := by decide

theorem test_if_ult_immediate :
    after (loaded [0x1FFA, 0x3013] [(1, 0x0005), (2, 0x0000)]) (·.pc) = some 1 := by decide

theorem test_if_uge_immediate :
    after (loaded [0x103E, 0x3013] [(1, 0x0000), (2, 0x0000)]) (·.pc) = some 1 := by decide

theorem test_skip_of_pair : after (loaded [0x106A, 0x123F, 0x2043] []) (·.pc) = some 3 := by decide

theorem test_skip_looks_at_one_extension : after (loaded [0x106A, 0x111F, 0x222F] []) (·.pc) = some 3 := by decide

theorem test_skip_of_undefined_form_nine : after (loaded [0x106A, 0x0024, 0x2013] []) (·.pc) = some 3 := by decide

theorem test_skip_of_unknown_opcode : after (loaded [0x106A, 0x0004, 0x000C] []) (·.pc) = some 2 := by decide

/-! ### Undefined encodings (section 9) -/

theorem test_undef1Rr : faultOf (loaded [0xAB04] []) = some (.unknownOpcode 1 0) := by decide

theorem test_undef4Rr : faultOf (loaded [0x0010] []) = some (.unknownOpcode 4 0) := by decide

theorem test_undef5Rr : faultOf (loaded [0x0014] []) = some (.unknownOpcode 5 0) := by decide

theorem test_undef7Rr : faultOf (loaded [0x001C] []) = some (.unknownOpcode 7 0) := by decide

theorem test_undef11Rr : faultOf (loaded [0x002C] []) = some (.unknownOpcode 11 0) := by decide

theorem test_undef14Rr : faultOf (loaded [0x0038] []) = some (.unknownOpcode 14 0) := by decide

theorem test_undef15Rr : faultOf (loaded [0x003C] []) = some (.unknownOpcode 15 0) := by decide

theorem test_undef18Rr : faultOf (loaded [0x0048] []) = some (.unknownOpcode 18 0) := by decide

theorem test_undef19Rr : faultOf (loaded [0x004C] []) = some (.unknownOpcode 19 0) := by decide

theorem test_undef14Ls : faultOf (loaded [0x1209] []) = some (.unknownOpcode 14 0) := by decide

theorem test_undef15Ls : faultOf (loaded [0xFFFD] []) = some (.unknownOpcode 15 0) := by decide

theorem test_undef18Ri : faultOf (loaded [0x100A] []) = some (.unknownOpcode 18 0) := by decide

theorem test_undef19Ri : faultOf (loaded [0x100E] []) = some (.unknownOpcode 19 0) := by decide

theorem test_undef7Ri : faultOf (loaded [0x100B] []) = some (.unknownOpcode 7 0) := by decide

theorem test_immRr : faultOf (loaded [0x0024] []) = some (.undefinedForm 9 0) := by decide

theorem test_loadRr : faultOf (loaded [0x0030] []) = some (.undefinedForm 12 0) := by decide

theorem test_storeRr : faultOf (loaded [0x0034] []) = some (.undefinedForm 13 0) := by decide

/-! ### Witnesses: for each statement with hypotheses, a state and operands that meet them, at the edges of their ranges

`⟨_, rfl⟩` where a next state is asked for: the state is the one the machine computes. -/

theorem witness_DecodeRecoversEncodedFields :
    (Instr.ifUgeRr 15 15).wellFormed = true ∧ (Instr.store 15 0 15).wellFormed = true ∧
    (Instr.ifUgeRi 15 (-32)).wellFormed = true ∧ (Instr.moveRi 0 127).wellFormed = true ∧
    (Instr.callImm (-1024)).wellFormed = true ∧ (Instr.imm 2047).wellFormed = true := by decide

/-- One word of each format. -/
theorem witness_DecodeYieldsTheCanonicalRecord :
    (0xFF7C#16).toNat % 4 = 0 ∧ (0xFFFD#16).toNat % 4 = 1 ∧ (0xFFFE#16).toNat % 4 = 2 ∧ (0xFFFB#16).toNat % 8 = 3 ∧
    (0xFFF7#16).toNat % 16 = 7 ∧ (0xFFFF#16).toNat % 16 = 15 := by decide

theorem witness_SignExtensionReadsTwosComplement :
    (1 ≤ 1 ∧ 1 ≤ 13) ∧ (1 ≤ 13 ∧ 13 ≤ 13) ∧ (sextField 1 1#1).toInt = -1 ∧ (sextField 12 0x800#12).toInt = -2048 := by
  decide

/-- An executed instruction that sets `skip` in front of a pair, and one that faults. -/
theorem witness_StepRunsTheDecodedInstruction :
    let s := loaded [0x106A, 0x123F, 0x2043] []
    let i : Instr := .ifEqRi 1 1
    let f := loaded [0xAB04] []
    (s.Running ∧ decode (s.pmem.read s.pc) = i ∧ i.wellFormed = true ∧ exec i s = .next (s.setSkip true)) ∧
    (f.Running ∧ decode (f.pmem.read f.pc) = .undef1Rr 10 11 ∧
      exec (.undef1Rr 10 11) f = .fault (.unknownOpcode 1#5 0x0000#16)) :=
  ⟨⟨by decide, by decide, by decide, rfl⟩, by decide, by decide, rfl⟩

theorem witness_EndedMachineStaysPut :
    ¬ (loaded [0x0000] []).setHalt.Running ∧ ¬ (loaded [0x0000] []).setError.Running := by decide

theorem witness_OperandCombinesImmediateAndLatch :
    (loaded [] []).latch.valid = false ∧ (loadedLatch [] [] 0x1235).latch.valid = true ∧
    ((loadedLatch [] [] 0xFFF0).latch.valid = true ∧ (loadedLatch [] [] 0xFFF0).latch.value.extractLsb' 0 4 = 0#4) := by
  decide

/-- Section 1.4's program: an extension, its consumer, and a third instruction. -/
theorem witness_LatchSurvivesExactlyOneInstruction :
    let s := loaded [0x123F, 0x1043, 0x2043] []
    s.Boundary ∧ s.Running ∧ s.fetch = .imm 0x123 ∧
      ∃ t, step s = .next t ∧ t.fetch = .moveRi 1 4 ∧ ∃ u, step t = .next u := by
  refine ⟨by decide, by decide, by decide, ?_⟩
  refine exists_next (s := loaded [0x123F, 0x1043, 0x2043] []) (fun t => t.fetch = .moveRi 1 4) (by decide) |>.imp ?_
  refine fun t ht => ⟨ht.1, ht.2, ?_⟩
  simp only [step, ht.2, exec, execMoveRi]
  split <;> exact ⟨_, rfl⟩

theorem witness_LatchIsValidExactlyAfterImm :
    let s := loaded [0x123F] []
    let n := loadedLatch [0x0000] [] 0x1230
    (s.Boundary ∧ s.Running ∧ s.fetch = .imm 0x123 ∧ ∃ t, step s = .next t) ∧
    (n.Boundary ∧ n.Running ∧ ∃ t, step n = .next t) :=
  ⟨⟨by decide, by decide, by decide, _, rfl⟩, by decide, by decide, _, rfl⟩

/-- A false compare in front of an extension. -/
theorem witness_FalseCompareSkipsOneUnit :
    let s := loaded [0x106A, 0x123F, 0x2043] []
    s.Boundary ∧ s.Running ∧ 26 ≤ s.fetch.opcode.toNat ∧
      ¬ CompareHolds s.fetch.opcode (leftOf s.fetch s) (operandOf s.fetch s) ∧
      (s.instrAt (s.pc + 1)).opcode = 9#5 := by
  unfold CompareHolds
  decide

/-- A false compare in front of another instruction, in the last slot of program memory. -/
theorem witness_FalseCompareSkipsOneUnit_at_top :
    let s := { loaded [0x2013] [] with pc := 0xFFFF, pmem := [(0, 0x2013#16), (0xFFFF, 0x106A#16)] }
    s.Boundary ∧ s.Running ∧ 26 ≤ s.fetch.opcode.toNat ∧
      ¬ CompareHolds s.fetch.opcode (leftOf s.fetch s) (operandOf s.fetch s) ∧
      (s.instrAt (s.pc + 1)).opcode ≠ 9#5 := by
  unfold CompareHolds
  decide

theorem witness_TrueCompareGoesOn :
    let s := loaded [0x1270] [(1, 0x8000), (2, 0x7FFF)]
    let n := loadedLatch [0x112A] [(1, 0x1234)] 0x1230
    (s.Boundary ∧ s.Running ∧ CompareHolds s.fetch.opcode (leftOf s.fetch s) (operandOf s.fetch s)) ∧
    (n.Boundary ∧ n.Running ∧ CompareHolds n.fetch.opcode (leftOf n.fetch n) (operandOf n.fetch n)) := by
  unfold CompareHolds
  decide

theorem witness_NopChangesNothing :
    let s := loadedLatch [0xAB00] [] 0x1230
    s.Boundary ∧ s.Running ∧ s.fetch = .nop 10 11 := by decide

theorem witness_JumpTransfersControl :
    let s := loaded [0x0420] [(4, 0xFFFF)]
    let n := loadedLatch [0xFF87] [] 0x0100
    (s.Boundary ∧ s.Running ∧ s.fetch = .jumpRr 0 4) ∧ (n.Boundary ∧ n.Running ∧ n.fetch = .jumpImm (-4)) := by decide

/-- A call by each form, and a later state that returns from it. -/
theorem witness_ReturnResumesAfterTheCall :
    let s := loaded [0x0097] []
    let n := (loaded [0x0000, 0x0528] [(5, 0x0020)]).setPc 1
    (s.Boundary ∧ s.Running ∧ s.fetch = .callImm 4 ∧ ∃ t, step s = .next t ∧ t.reg 0 = 0) ∧
    (n.Boundary ∧ n.Running ∧ n.fetch = .callRr 0 5 ∧ ∃ t, step n = .next t ∧ t.reg 0 = 1) ∧
    (∃ v : State, v.Boundary ∧ v.Running ∧ v.fetch = .jumpRr 0 0 ∧ v.reg 0 = 0) ∧
    (∃ v : State, v.Boundary ∧ v.Running ∧ v.fetch = .jumpRr 0 0 ∧ v.reg 0 = 1) :=
  ⟨⟨by decide, by decide, by decide, exists_next _ (by decide)⟩,
    ⟨by decide, by decide, by decide, exists_next _ (by decide)⟩,
    ⟨loaded [0x0020] [], by decide⟩, ⟨loaded [0x0020] [(0, 1)], by decide⟩⟩

theorem witness_HaltEndsTheRunWithZero :
    let s := loaded [0xAB0C] [(1, 0x1234)]
    s.Running ∧ s.fetch = .halt 10 11 := by decide

theorem witness_ErrorEndsTheRunWithRegisterOne :
    let s := loaded [0x0008] [(1, 0xFFFF)]
    let n := loaded [0x0008] []
    (s.Running ∧ s.fetch = .error 0 0 ∧ s.reg 1 ≠ 0) ∧ (n.Running ∧ n.fetch = .error 0 0 ∧ n.reg 1 = 0) := by decide

theorem witness_MoveCopiesTheOperand :
    (loaded [] []).latch.valid = false ∧ (loadedLatch [] [] 0x1230).latch.valid = true := by decide

/-- Section 1.4's variant in which the second immediate is negative, with `rd` 15 and the constant 0x800F. -/
theorem witness_PrefixedMoveLoadsAnyConstant :
    let s := loaded [0x800F, 0xFFF3] []
    s.Boundary ∧ s.Running ∧ s.fetch = .imm (-2048) ∧ s.instrAt (s.pc + 1) = .moveRi 15 (-1) ∧
    (-2048 : Imm13).extractLsb' 0 12 = (0x800F#16).extractLsb' 4 12 ∧
    (-1 : Imm13).extractLsb' 0 4 = (0x800F#16).extractLsb' 0 4 := by decide

/-- The last RAM word, the character address, and the unmapped one. -/
theorem witness_LoadReadsTheAddressedWord :
    effectiveAddress (loaded [] [(2, 0xFFEF)]) 2 15 = 0xFFFE#16 ∧
    effectiveAddress (loaded [] [(2, 0xFF00)]) 2 0 = 0xFF00#16 ∧
    effectiveAddress (loaded [] [(2, 0xFFF0)]) 2 15 = 0xFFFF#16 := by decide

theorem witness_StoreWritesTheAddressedWord :
    (loaded [] [(2, 0xFFEF)]).ram.wf = true ∧
    effectiveAddress (loaded [] [(2, 0xFFEF)]) 2 15 = 0xFFFE#16 ∧
    (effectiveAddress (loaded [] [(1, 0x000D), (2, 0xFF00)]) 2 0 = 0xFF00#16 ∧
      ((loaded [] [(1, 0x000D), (2, 0xFF00)]).reg 1).toNat % 256 = 13) ∧
    (effectiveAddress (loaded [] [(1, 0x010C), (2, 0xFF00)]) 2 0 = 0xFF00#16 ∧
      ((loaded [] [(1, 0x010C), (2, 0xFF00)]).reg 1).toNat % 256 ≠ 13) ∧
    effectiveAddress (loaded [] [(2, 0xFFF0)]) 2 15 = 0xFFFF#16 := by decide

/-- A store to RAM and one to the character address, each followed by a load of the same address. -/
theorem witness_StoreThenLoadReadsBack :
    let s := loaded [] [(1, 0x55), (2, 0x40)]
    let n := loaded [] [(1, 0x41), (2, 0xFF00)]
    (s.ram.wf = true ∧ ∃ t, exec (.store 1 2 3) s = .next t ∧
      effectiveAddress t 2 3 = effectiveAddress s 2 3 ∧ effectiveAddress s 2 3 ≠ 0xFF00#16) ∧
    (n.ram.wf = true ∧ ∃ t, exec (.store 1 2 0) n = .next t ∧
      effectiveAddress t 2 0 = effectiveAddress n 2 0 ∧ effectiveAddress n 2 0 = 0xFF00#16) :=
  ⟨⟨by decide, _, rfl, by decide⟩, by decide, _, rfl, by decide⟩

/-- Each clause at the ends of its range. -/
theorem witness_MemoryMapGovernsTheBus :
    State.reset.ram.wf = true ∧ (0x0000#16).toNat ≤ 0xFEFF ∧ (0xFEFF#16).toNat ≤ 0xFEFF ∧
    (0xFF01 ≤ (0xFF01#16).toNat ∧ (0xFF01#16).toNat ≤ 0xFFFE) ∧ (0xFF01 ≤ (0xFFFE#16).toNat ∧ (0xFFFE#16).toNat ≤ 0xFFFE) ∧
    (0xFF00#16).toNat = 0xFF00 ∧ (0x010D#16).toNat % 256 = 13 ∧ (0x000C#16).toNat % 256 ≠ 13 ∧
    (0xFFFF#16).toNat = 0xFFFF := by decide

/-- Section 1.8's read at 0x0012: A is in range and declines, B answers; and 0x0100, which no device answers. The spans 1,
65536, 0 and 65537 are the edges of the clauses on configuration. -/
theorem witness_FirstAcceptingDeviceAnswers :
    (∃ (before : List (Device (List Word × Memory))) (d : Device (List Word × Memory)) (r : (List Word × Memory) × Word),
      (∀ e ∈ before, ¬ (e.base.toNat ≤ 0x12 ∧ 0x12 - e.base.toNat < e.span) ∨
        e.handler ([], []) 0x0012#16 0x0000#16 false = none) ∧ before ≠ [] ∧
      d.base.toNat ≤ 0x12 ∧ 0x12 - d.base.toNat < d.span ∧ d.handler ([], []) 0x0012#16 0x0000#16 false = some r) ∧
    transact twoDevices ([], []) 0x0100#16 0x0000#16 false = none ∧
    (1 ≤ 1 ∧ 1 ≤ 65536) ∧ (1 ≤ 65536 ∧ 65536 ≤ 65536) ∧ (0 = 0 ∨ 65536 < 0) ∧ (65537 = 0 ∨ 65536 < 65537) := by
  refine ⟨⟨[deviceA], deviceB, _, ?_, by simp, by decide, by decide, rfl⟩, by decide, by decide⟩
  intro e he
  rw [List.mem_singleton.mp he]
  exact .inr rfl

theorem witness_ProgramMemoryIsNeverWritten :
    (∃ t v, transact devices State.reset 0x0000#16 0x1234#16 true = some (t, v)) ∧
    (∃ t, exec (.store 1 2 3) (loaded [0x1235] [(1, 7)]) = .next t) ∧
    (∃ t, step (loaded [0x1235] [(1, 7)]) = .next t) ∧
    (∃ s t : State, s ≠ t ∧ t.pc = s.pc ∧ ∀ b : Word, t.pmem.read b = s.pmem.read b) :=
  ⟨⟨_, _, rfl⟩, ⟨_, rfl⟩, ⟨_, rfl⟩, loaded [] [], loaded [] [(1, 7)], by decide, rfl, fun _ => rfl⟩

theorem witness_ShadowedWordsKeepAndOutputGrows :
    let s := loadedRam [0x1205] [(1, 0x41), (2, 0xFF00)] 0xFF00 0x7777
    s.ram.wf = true ∧ ∃ t, step s = .next t := ⟨by decide, _, rfl⟩

theorem witness_CanonicalMemoriesThatReadAlikeAreEqual :
    let m := Memory.write (Memory.write [] 3 7) 1 5
    let n := Memory.write (Memory.write [] 1 5) 3 7
    m.wf = true ∧ n.wf = true ∧ m = n ∧ ∀ a : Word, m.read a = n.read a := by
  have h : Memory.write (Memory.write [] 3 7) 1 5 = Memory.write (Memory.write [] 1 5) 3 7 := by decide
  exact ⟨by decide, by decide, h, fun a => by rw [h]⟩

/-- For the clauses of every compare: a pair on which it holds and one on which it fails. -/
theorem witness_compares :
    ((0x8000#16).toNat = (0x8000#16).toNat ∧ ¬ (0x8000#16).toNat = (0x0000#16).toNat) ∧
    ((0x8000#16).toInt < (0x7FFF#16).toInt ∧ ¬ (0x0000#16).toInt < (0x0000#16).toInt) ∧
    ((0x0000#16).toNat < (0x8000#16).toNat ∧ ¬ (0x8000#16).toNat < (0x7FFF#16).toNat) := by decide

/-- An unknown opcode at the program counter, and one behind a false compare. -/
theorem witness_UndefinedOpcodesAreFatalWhenExecuted :
    let s := loaded [0xAB04] []
    let n := loaded [0x106A, 0x100B] []
    ((Instr.undef7Ri 15 (-1)).opcode ∈ unknownOpcodes) ∧
    (s.Running ∧ (decodeRecord (s.pmem.read s.pc)).opcode ∈ unknownOpcodes) ∧
    (n.Boundary ∧ n.Running ∧ 26 ≤ n.fetch.opcode.toNat ∧
      ¬ CompareHolds n.fetch.opcode (leftOf n.fetch n) (operandOf n.fetch n) ∧
      (n.instrAt (n.pc + 1)).opcode ∈ unknownOpcodes) := by
  unfold CompareHolds
  decide

theorem witness_UndefinedFormsAreFatalWhenExecuted :
    let s := loaded [0x0024] []
    let n := loaded [0x0034] []
    (s.Running ∧ s.fetch.format = .rr ∧ s.fetch.opcode = 9#5) ∧
    (n.Running ∧ n.fetch.format = .rr ∧ n.fetch.opcode = 13#5) := by decide

/-- Each of the four causes on an instruction and a state, and an execution without a fault. -/
theorem witness_ExecutionFaultsExactlyWhenFatal :
    exec (.undef1Rr 0 0) State.reset = .fault (.unknownOpcode 1#5 0x0000#16) ∧
    exec (.loadRr 0 0) State.reset = .fault (.undefinedForm 12#5 0x0000#16) ∧
    exec (.load 1 2 15) (loaded [] [(2, 0xFFF0)]) = .fault (.busUnhandled 0xFFFF#16 false) ∧
    exec (.store 1 2 15) (loaded [] [(2, 0xFFF0)]) = .fault (.busUnhandled 0xFFFF#16 true) ∧
    exec (.nop 0 0) State.reset = .next State.reset := ⟨rfl, rfl, rfl, rfl, rfl⟩

/-- Reset itself, a machine with a valid latch, and one that has ended. -/
theorem witness_StepKeepsTheBoundaryInvariant :
    State.reset.Boundary ∧ (∃ t, step State.reset = .next t) ∧
    (loadedLatch [0x1235] [(1, 7)] 0x1230).Boundary ∧ (∃ t, step (loadedLatch [0x1235] [(1, 7)] 0x1230) = .next t) ∧
    (loaded [] []).setHalt.Boundary ∧ (∃ t, step (loaded [] []).setHalt = .next t) :=
  ⟨by decide, ⟨_, rfl⟩, by decide, ⟨_, rfl⟩, by decide, ⟨_, rfl⟩⟩

/-- A store to RAM, one to the character address, and an instruction that is no store. -/
theorem witness_StepChangesOnlyWhatItsInstructionNames :
    let s := loaded [0x1235] [(1, 7)]
    let n := loaded [0x1205] [(1, 0x41), (2, 0xFF00)]
    let v := loaded [0x1240] [(1, 7)]
    (s.Boundary ∧ s.Running ∧ (∃ t, step s = .next t) ∧ s.fetch = .store 1 2 3 ∧ effectiveAddress s 2 3 = 0x0003#16) ∧
    (n.Boundary ∧ n.Running ∧ (∃ t, step n = .next t) ∧ n.fetch = .store 1 2 0 ∧ effectiveAddress n 2 0 = 0xFF00#16) ∧
    (v.Boundary ∧ v.Running ∧ (∃ t, step v = .next t) ∧ v.fetch = .addRr 1 2 ∧ destinationOf v.fetch ≠ some 2) :=
  ⟨⟨by decide, by decide, ⟨_, rfl⟩, by decide, by decide⟩, ⟨by decide, by decide, ⟨_, rfl⟩, by decide, by decide⟩,
    by decide, by decide, ⟨_, rfl⟩, by decide, by decide⟩

/-- A step of an ended machine, and steps that end the machine. -/
theorem witness_SignalsAreNeverCleared :
    (∃ t, step (loaded [] []).setHalt = .next t ∧ t.halt = true) ∧
    (∃ t, step (loaded [] []).setError = .next t ∧ t.error = true) ∧
    (∃ t, step (loaded [0x000C] []) = .next t ∧ ¬ t.Running) :=
  ⟨exists_next _ (by decide), exists_next _ (by decide), exists_next _ (by decide)⟩

theorem witness_CycleCounterIsNeverRead : ∃ t, step (loaded [0x1240] [(1, 7)]) = .next t ∧ t.cycle = 1 :=
  exists_next _ (by decide)

theorem witness_OutputIsNeverReadBack : ∃ t, step (loaded [0x1205] [(1, 0x41), (2, 0xFF00)]) = .next t ∧ t.out = [0x41] :=
  exists_next _ (by decide)

/-- A run that its budget ends (section 9), and a step that leaves the machine running. -/
theorem witness_RunIsResumable :
    (∃ t, run 1 (loaded [0x0000, 0x000C] []) = (.cycleLimitReached, t)) ∧
    (loaded [0x0000, 0x000C] []).Running ∧ ∃ t, step (loaded [0x0000, 0x000C] []) = .next t ∧ t.Running :=
  ⟨⟨_, rfl⟩, by decide, exists_next _ (by decide)⟩

/-- One run for each outcome a run can have. -/
theorem witness_OutcomeDescribesTheLastState :
    (∃ t, run 1 (loaded [0x000C] []) = (.halted, t)) ∧ (∃ t, run 1 (loaded [0x0008] [(1, 21)]) = (.errored 21, t)) ∧
    (∃ t, run 0 (loaded [0x000C] []) = (.cycleLimitReached, t)) ∧
    (∃ t, run 1 (loaded [0x0004] []) = (.fatal (.unknownOpcode 1#5 0x0000#16), t)) :=
  ⟨⟨_, rfl⟩, ⟨_, rfl⟩, ⟨_, rfl⟩, ⟨_, rfl⟩⟩

theorem witness_ProgramLoadFillsTheTable :
    (∃ s, boot [0x1053#16, 0x000C#16] [] = .ok s) ∧ [0x1053#16, 0x000C#16].length ≤ (2#16).toNat :=
  ⟨⟨_, rfl⟩, by decide⟩

theorem witness_DataPreloadFillsRam : ∃ s, boot [] [0x0007#16, 0x0000#16, 0x0009#16] = .ok s := ⟨_, rfl⟩

/-- Inputs one word too long, and inputs that just fit. -/
theorem witness_LaunchRefusesOversizedInputs :
    65536 < (List.replicate 65537 0x0000#16).length ∧
    ((List.replicate 65536 0x0000#16).length ≤ 65536 ∧ 65536 < (List.replicate 65537 0x0000#16).length) := by
  simp only [List.length_replicate]
  decide

end Sys2Proof.Tests
end

section
/-!
SUPPORT. The memory map and the separation of program memory from the bus (spec/20_memory.md R65, R52): what the devices
and the instructions do to the memories, and the obligations O27 and O29.
-/

namespace Sys2Proof.Machine

/-! ### The memory map, one lemma per region (R65) -/

theorem memRead_mapped (s : State) {a : Word} (h : a ≠ 0xFFFF#16) : memRead s a = some (s, s.ram.read a) := by
  rw [memRead_eq, if_neg h]

theorem memRead_unmapped (s : State) : memRead s 0xFFFF#16 = none := by
  rw [memRead_eq, if_pos rfl]

theorem memWrite_ram (s : State) {a : Word} (v : Word) (h : a ≠ 0xFFFF#16) (hc : a ≠ 0xFF00#16) :
    memWrite s a v = some (s.setRam (s.ram.write a v), v) := by
  rw [memWrite_eq, if_neg h, if_neg hc]

theorem memWrite_char (s : State) (v : Word) : memWrite s 0xFF00#16 v = some (s.emit (charBytes v), v) := by
  rw [memWrite_eq, if_neg (by decide), if_pos rfl]

theorem memWrite_unmapped (s : State) (v : Word) : memWrite s 0xFFFF#16 v = none := by
  rw [memWrite_eq, if_pos rfl]

/-! ### The emitted bytes (R63) -/

/-- The character device tests the low byte of the word. -/
theorem lowByte_eq_carriageReturn_iff (data : Word) :
    data.extractLsb' 0 8 = carriageReturn ↔ data.toNat % 256 = 13 := by
  rw [← BitVec.toNat_inj]
  simp [carriageReturn]

theorem charBytes_of_carriageReturn {data : Word} (h : data.toNat % 256 = 13) : charBytes data = Config.crSeq :=
  if_pos ((lowByte_eq_carriageReturn_iff data).2 h)

theorem charBytes_of_ne_carriageReturn {data : Word} (h : data.toNat % 256 ≠ 13) :
    charBytes data = [BitVec.ofNat 8 data.toNat] := by
  have hlow : data.extractLsb' 0 8 = BitVec.ofNat 8 data.toNat := BitVec.eq_of_toNat_eq (by simp)
  rw [charBytes, if_neg (mt (lowByte_eq_carriageReturn_iff data).1 h), hlow]

/-! ### What no bus transaction and no instruction changes (R52) -/

/-- A view of the storage that no handler of the list changes is changed by no transaction of the dispatcher. -/
theorem transact_keeps {σ α : Type} {view : σ → α} {ds : List (Device σ)} {st st' : σ} {a data v : Word}
    {isWrite : Bool}
    (keeps : ∀ d ∈ ds, ∀ u w, d.handler st a data isWrite = some (u, w) → view u = view st)
    (h : transact ds st a data isWrite = some (st', v)) : view st' = view st := by
  induction ds with
  | nil => cases h
  | cons d ds ih =>
    have hrest : transact ds st a data isWrite = some (st', v) → view st' = view st :=
      ih fun e he => keeps e (List.mem_cons_of_mem d he)
    rw [transact] at h
    split at h
    · split at h
      · next accepted hd =>
        cases h
        exact keeps d List.mem_cons_self st' v hd
      · exact hrest h
    · exact hrest h

theorem charOutHandler_pmem {s t : State} {a data v : Word} {isWrite : Bool}
    (h : charOutHandler s a data isWrite = some (t, v)) : t.pmem = s.pmem := by
  cases isWrite <;> cases h
  rfl

theorem ramHandler_pmem {s t : State} {a data v : Word} {isWrite : Bool}
    (h : ramHandler s a data isWrite = some (t, v)) : t.pmem = s.pmem := by
  cases isWrite <;> cases h <;> rfl

/-- Neither device of the machine owns program memory. -/
theorem transact_devices_pmem {s t : State} {a data v : Word} {isWrite : Bool}
    (h : transact devices s a data isWrite = some (t, v)) : t.pmem = s.pmem := by
  refine transact_keeps (view := State.pmem) (fun d hd u w hu => ?_) h
  simp only [devices, List.mem_cons, List.not_mem_nil, or_false] at hd
  obtain rfl | rfl := hd
  · exact charOutHandler_pmem (a := a) hu
  · exact ramHandler_pmem hu

theorem Effect.pmem_eq {s t : State} (h : Effect s t) : t.pmem = s.pmem := by
  cases h <;> rfl

theorem exec_pmem {i : Instr} {s t : State} (h : exec i s = .next t) : t.pmem = s.pmem :=
  (exec_next h).pmem_eq

theorem step_pmem {s t : State} (h : step s = .next t) : t.pmem = s.pmem := by
  obtain ⟨-, rfl⟩ | ⟨-, u, hu, rfl⟩ := step_next h
  · rfl
  · rw [State.finishStep_pmem, exec_pmem hu]

/-! ### The obligations -/

/-- Settles O27, region by region of the memory map. -/
theorem memoryMapGovernsTheBus : Obligations.MemoryMapGovernsTheBus := by
  intro s a data hwf
  refine ⟨fun ha => ?ram, fun ha => ?char, fun ha => ?unmapped, fun ha => ?read⟩
  case ram =>
    have hm : a ≠ 0xFFFF#16 := by rintro rfl; simp at ha
    have hc : a ≠ 0xFF00#16 := by rintro rfl; simp at ha
    have hself : (s.ram.write a data).read a = data := by rw [Memory.read_write hwf, if_pos rfl]
    refine ⟨_, memWrite_ram s data hm hc, hself, rfl, fun b hb => ?_, ?_⟩
    · rw [State.setRam_ram, Memory.read_write hwf, if_neg hb]
    · rw [memRead_mapped _ hm, State.setRam_ram, hself]
  case char =>
    obtain rfl : a = 0xFF00#16 := BitVec.eq_of_toNat_eq ha
    refine ⟨_, memWrite_char s data, fun b => rfl, fun hd => ?_, fun hd => ?_, memRead_mapped _ (by decide)⟩
    · rw [State.emit_out, charBytes_of_ne_carriageReturn hd]
    · rw [State.emit_out, charBytes_of_carriageReturn hd]
  case unmapped =>
    obtain rfl : a = 0xFFFF#16 := BitVec.eq_of_toNat_eq ha
    exact ⟨memWrite_unmapped s data, memRead_unmapped s, storeWord_unmapped data s, fun rd => loadWord_unmapped rd s⟩
  case read =>
    exact memRead_mapped s (by rintro rfl; simp at ha)

/-- Settles O29: no device and no effect of an instruction touches program memory, and fetch reads one word of it. -/
theorem programMemoryIsNeverWritten : Obligations.ProgramMemoryIsNeverWritten := by
  refine ⟨fun s t a data v isWrite h b => ?_, fun i s t h b => ?_, fun s t h b => ?_, fun s t hpc hpmem => ?_⟩
  · rw [transact_devices_pmem h]
  · rw [exec_pmem h]
  · rw [step_pmem h]
  · rw [State.fetch, State.fetch, State.instrAt, State.instrAt, hpc, hpmem]

end Sys2Proof.Machine
end

section
/-!
SUPPORT. The encoding round trip, sign extension and the undefined opcode numbers (spec/30_encoding.md R94, R98, R102):
what each field reads from each encoder's word, the record of a decoded word, and the obligations O1, O5 and O46.
-/

namespace Sys2Proof.Laws

/-! ### Sign extension by XOR and subtraction (R94) -/

/-- XOR with `2 ^ k` flips bit `k`, the top bit of a field of `k + 1` bits. -/
theorem xor_two_pow_of_lt {x k : Nat} (h : x < 2 ^ (k + 1)) :
    x ^^^ 2 ^ k = if x < 2 ^ k then x + 2 ^ k else x - 2 ^ k := by
  have hpos : 0 < 2 ^ k := Nat.two_pow_pos k
  have hdiv : (x ^^^ 2 ^ k) / 2 ^ k = x / 2 ^ k ^^^ 1 := by rw [Nat.xor_div_two_pow, Nat.div_self hpos]
  have hmod : (x ^^^ 2 ^ k) % 2 ^ k = x % 2 ^ k := by rw [Nat.xor_mod_two_pow, Nat.mod_self, Nat.xor_zero]
  rw [← Nat.div_add_mod (x ^^^ 2 ^ k) (2 ^ k), hdiv, hmod]
  split
  · next hlow =>
    simp [Nat.div_eq_of_lt hlow, Nat.mod_eq_of_lt hlow, Nat.add_comm]
  · next hhigh =>
    have hone : x / 2 ^ k = 1 := Nat.div_eq_of_lt_le (by omega) (by omega)
    simp [hone, Nat.mod_eq_sub]

/-- The XOR form as an integer: no wrap occurs, since a field of at most 13 bits fits the canonical immediate. -/
theorem toInt_sextField {n : Nat} (h1 : 1 ≤ n) (h13 : n ≤ 13) (v : BitVec n) :
    (sextField n v).toInt = ((v.toNat ^^^ 2 ^ (n - 1) : Nat) : Int) - 2 ^ (n - 1) := by
  obtain ⟨k, rfl⟩ : ∃ k, n = k + 1 := ⟨n - 1, by omega⟩
  have hk : 2 ^ k ≤ 2 ^ 12 := Nat.pow_le_pow_right (by decide) (by omega)
  have hfield : v.toNat ^^^ 2 ^ k < 2 ^ (k + 1) :=
    Nat.xor_lt_two_pow v.isLt (Nat.pow_lt_pow_right (by decide) (by omega))
  have hmask : (BitVec.twoPow 13 k).toNat = 2 ^ k := by
    rw [BitVec.toNat_twoPow, Nat.mod_eq_of_lt (by omega)]
  have hxor : (v.setWidth 13 ^^^ BitVec.twoPow 13 k).toNat = v.toNat ^^^ 2 ^ k := by
    rw [BitVec.toNat_xor, hmask, BitVec.toNat_setWidth, Nat.mod_eq_of_lt (by omega)]
  have hpow : ((2 ^ k : Nat) : Int) = 2 ^ k := by norm_cast
  rw [sextField, Nat.add_sub_cancel, BitVec.toInt_sub, BitVec.toInt_eq_toNat_bmod, BitVec.toInt_eq_toNat_bmod,
    hxor, hmask, Int.bmod_sub_bmod, Int.sub_bmod_bmod, Int.bmod_eq_of_le (by omega) (by omega), hpow]

/-- The two's-complement reading of a field takes the weight of its top bit as negative (R95). -/
theorem toInt_eq_xor_sub {n : Nat} (h1 : 1 ≤ n) (v : BitVec n) :
    v.toInt = ((v.toNat ^^^ 2 ^ (n - 1) : Nat) : Int) - 2 ^ (n - 1) := by
  obtain ⟨k, rfl⟩ : ∃ k, n = k + 1 := ⟨n - 1, by omega⟩
  have hv := v.isLt
  rw [Nat.add_sub_cancel, xor_two_pow_of_lt hv, BitVec.toInt_eq_toNat_cond, Nat.pow_succ]
  have hpow : ((2 ^ k : Nat) : Int) = 2 ^ k := by norm_cast
  by_cases hlow : v.toNat < 2 ^ k
  · rw [if_pos hlow, if_pos (by omega)]
    omega
  · rw [if_neg hlow, if_neg (by omega)]
    omega

theorem sextField_toInt {n : Nat} (h1 : 1 ≤ n) (h13 : n ≤ 13) (v : BitVec n) : (sextField n v).toInt = v.toInt := by
  rw [toInt_sextField h1 h13, toInt_eq_xor_sub h1]

/-- Settles O5: both forms read the field with its top bit negative. -/
theorem signExtensionReadsTwosComplement : Obligations.SignExtensionReadsTwosComplement :=
  fun _ h1 h13 v => ⟨sextField_toInt h1 h13 v, toInt_sextField h1 h13 v⟩

/-! ### What the sign and zero extension read from the encoder's field (R84, R97) -/

/-- A canonical immediate in the range of an `n`-bit signed field survives the field. -/
theorem sextField_extractLsb' {n : Nat} (h1 : 1 ≤ n) (h13 : n ≤ 13) {m : Imm13} (h : fitsSigned n m = true) :
    sextField n (m.extractLsb' 0 n) = m := by
  obtain ⟨k, rfl⟩ : ∃ k, n = k + 1 := ⟨n - 1, by omega⟩
  obtain ⟨hlo, hhi⟩ : -(2 ^ k : Int) ≤ m.toInt ∧ m.toInt < 2 ^ k := by simpa [fitsSigned] using h
  apply BitVec.toInt_inj.1
  calc (sextField (k + 1) (m.extractLsb' 0 (k + 1))).toInt
      = (m.extractLsb' 0 (k + 1)).toInt := sextField_toInt h1 h13 _
    _ = m.toInt.bmod (2 ^ (k + 1)) := by
        rw [← BitVec.setWidth_eq_extractLsb' h13, ← BitVec.signExtend_eq_setWidth_of_le _ h13,
          BitVec.toInt_signExtend, Nat.min_eq_left h13]
    _ = m.toInt := Int.bmod_eq_of_le (by push_cast; omega) (by push_cast; omega)

theorem zextField_extractLsb' {m : Imm13} (h : fitsOffset4 m = true) : zextField (m.extractLsb' 0 4) = m := by
  have hlt : m.toNat < 16 := by simpa [fitsOffset4] using h
  apply BitVec.eq_of_toNat_eq
  simp [zextField]
  omega

/-! ### The fields of the encoders' words (R83 to R88)

Each proof drops the parts of the word below the field, then those above it. -/

section Fields
open BitVec (extractLsb'_append_eq_of_le extractLsb'_append_eq_of_add_le)

@[simp] theorem fieldRd_encodeRr (op : BitVec 5) (rd rs : RegNum) : fieldRd (encodeRr op rd rs) = rd := by
  simp (disch := decide) only [fieldRd, encodeRr, extractLsb'_append_eq_of_le]
  simp

@[simp] theorem fieldRs_encodeRr (op : BitVec 5) (rd rs : RegNum) : fieldRs (encodeRr op rd rs) = rs := by
  simp (disch := decide) only [fieldRs, encodeRr, extractLsb'_append_eq_of_le,
    extractLsb'_append_eq_of_add_le]
  simp

@[simp] theorem fieldOp5_encodeRr (op : BitVec 5) (rd rs : RegNum) : fieldOp5 (encodeRr op rd rs) = op := by
  simp (disch := decide) only [fieldOp5, encodeRr, extractLsb'_append_eq_of_le,
    extractLsb'_append_eq_of_add_le]
  simp

@[simp] theorem fieldRd_encodeLs (op : BitVec 5) (rd rs : RegNum) (m : Imm13) : fieldRd (encodeLs op rd rs m) = rd := by
  simp (disch := decide) only [fieldRd, encodeLs, extractLsb'_append_eq_of_le]
  simp

@[simp] theorem fieldRs_encodeLs (op : BitVec 5) (rd rs : RegNum) (m : Imm13) : fieldRs (encodeLs op rd rs m) = rs := by
  simp (disch := decide) only [fieldRs, encodeLs, extractLsb'_append_eq_of_le,
    extractLsb'_append_eq_of_add_le]
  simp

@[simp] theorem fieldImm4_encodeLs (op : BitVec 5) (rd rs : RegNum) (m : Imm13) :
    fieldImm4 (encodeLs op rd rs m) = m.extractLsb' 0 4 := by
  simp (disch := decide) only [fieldImm4, encodeLs, extractLsb'_append_eq_of_le,
    extractLsb'_append_eq_of_add_le]
  simp

@[simp] theorem fieldOp2_encodeLs (op : BitVec 5) (rd rs : RegNum) (m : Imm13) :
    fieldOp2 (encodeLs op rd rs m) = op.extractLsb' 0 2 := by
  simp (disch := decide) only [fieldOp2, encodeLs, extractLsb'_append_eq_of_le,
    extractLsb'_append_eq_of_add_le]
  simp

@[simp] theorem fieldRd_encodeRi6 (op : BitVec 5) (rd : RegNum) (m : Imm13) : fieldRd (encodeRi6 op rd m) = rd := by
  simp (disch := decide) only [fieldRd, encodeRi6, extractLsb'_append_eq_of_le]
  simp

@[simp] theorem fieldImm6_encodeRi6 (op : BitVec 5) (rd : RegNum) (m : Imm13) :
    fieldImm6 (encodeRi6 op rd m) = m.extractLsb' 0 6 := by
  simp (disch := decide) only [fieldImm6, encodeRi6, extractLsb'_append_eq_of_le,
    extractLsb'_append_eq_of_add_le]
  simp

@[simp] theorem fieldOp4_encodeRi6 (op : BitVec 5) (rd : RegNum) (m : Imm13) :
    fieldOp4 (encodeRi6 op rd m) = op.extractLsb' 0 4 := by
  simp (disch := decide) only [fieldOp4, encodeRi6, extractLsb'_append_eq_of_le,
    extractLsb'_append_eq_of_add_le]
  simp

@[simp] theorem fieldRd_encodeRi8 (op : BitVec 5) (rd : RegNum) (m : Imm13) : fieldRd (encodeRi8 op rd m) = rd := by
  simp (disch := decide) only [fieldRd, encodeRi8, extractLsb'_append_eq_of_le]
  simp

@[simp] theorem fieldImm8_encodeRi8 (op : BitVec 5) (rd : RegNum) (m : Imm13) :
    fieldImm8 (encodeRi8 op rd m) = m.extractLsb' 0 8 := by
  simp (disch := decide) only [fieldImm8, encodeRi8, extractLsb'_append_eq_of_le,
    extractLsb'_append_eq_of_add_le]
  simp

@[simp] theorem fieldOp1Ri8_encodeRi8 (op : BitVec 5) (rd : RegNum) (m : Imm13) :
    fieldOp1Ri8 (encodeRi8 op rd m) = op.extractLsb' 0 1 := by
  simp (disch := decide) only [fieldOp1Ri8, encodeRi8, extractLsb'_append_eq_of_le,
    extractLsb'_append_eq_of_add_le]
  simp

@[simp] theorem fieldImm11_encodeI11 (op : BitVec 5) (m : Imm13) :
    fieldImm11 (encodeI11 op m) = m.extractLsb' 0 11 := by
  simp (disch := decide) only [fieldImm11, encodeI11, extractLsb'_append_eq_of_le]
  simp

@[simp] theorem fieldOp1I11_encodeI11 (op : BitVec 5) (m : Imm13) :
    fieldOp1I11 (encodeI11 op m) = op.extractLsb' 1 1 := by
  simp (disch := decide) only [fieldOp1I11, encodeI11, extractLsb'_append_eq_of_le,
    extractLsb'_append_eq_of_add_le]
  simp

@[simp] theorem fieldImm12_encodeI12 (m : Imm13) : fieldImm12 (encodeI12 m) = m.extractLsb' 0 12 := by
  simp (disch := decide) only [fieldImm12, encodeI12, extractLsb'_append_eq_of_le]
  simp

end Fields

/-! ### The round trip (R98) -/

theorem decodeRecord_encodeRr (op : BitVec 5) (rd rs : RegNum) :
    decodeRecord (encodeRr op rd rs) = ⟨.rr, op, rd, rs, 0⟩ := by
  simp [decodeRecord, formatOfWord_encodeRr]

/-- The premise on the opcode says that the format can carry it: its sub-field OR-ed into the base gives it back
(R91). -/
theorem decodeRecord_encodeLs {op : BitVec 5} (rd rs : RegNum) {m : Imm13}
    (hop : baseLs ||| (op.extractLsb' 0 2).setWidth 5 = op) (hm : fitsOffset4 m = true) :
    decodeRecord (encodeLs op rd rs m) = ⟨.ls, op, rd, rs, m⟩ := by
  simp [decodeRecord, formatOfWord_encodeLs, hop, zextField_extractLsb' hm]

theorem decodeRecord_encodeRi6 {op : BitVec 5} (rd : RegNum) {m : Imm13}
    (hop : baseRi6 ||| (op.extractLsb' 0 4).setWidth 5 = op) (hm : fitsSigned 6 m = true) :
    decodeRecord (encodeRi6 op rd m) = ⟨.ri6, op, rd, 0, m⟩ := by
  simp [decodeRecord, formatOfWord_encodeRi6, hop, sextField_extractLsb' _ _ hm]

theorem decodeRecord_encodeRi8 {op : BitVec 5} (rd : RegNum) {m : Imm13}
    (hop : baseRi8 ||| (op.extractLsb' 0 1).setWidth 5 = op) (hm : fitsSigned 8 m = true) :
    decodeRecord (encodeRi8 op rd m) = ⟨.ri8, op, rd, 0, m⟩ := by
  simp [decodeRecord, formatOfWord_encodeRi8, hop, sextField_extractLsb' _ _ hm]

theorem decodeRecord_encodeI11 {op : BitVec 5} {m : Imm13}
    (hop : baseI11 ||| ((op.extractLsb' 1 1).setWidth 5 <<< 1) = op) (hm : fitsSigned 11 m = true) :
    decodeRecord (encodeI11 op m) = ⟨.i11, op, 0, 0, m⟩ := by
  simp [decodeRecord, formatOfWord_encodeI11, hop, sextField_extractLsb' _ _ hm]

theorem decodeRecord_encodeI12 {m : Imm13} (hm : fitsSigned 12 m = true) :
    decodeRecord (encodeI12 m) = ⟨.i12, Opc.imm, 0, 0, m⟩ := by
  simp [decodeRecord, formatOfWord_encodeI12, sextField_extractLsb' _ _ hm]

/-- The record half of the round trip, format by format. -/
theorem decodeRecord_encode {i : Instr} (h : i.wellFormed = true) : decodeRecord (encode i) = i.record := by
  cases i
  case load | store | undef14Ls | undef15Ls => exact decodeRecord_encodeLs _ _ (by dsimp only [Instr.record]; decide) h
  case moveRi | undef7Ri => exact decodeRecord_encodeRi8 _ (by dsimp only [Instr.record]; decide) h
  case jumpImm | callImm => exact decodeRecord_encodeI11 (by dsimp only [Instr.record]; decide) h
  case imm => exact decodeRecord_encodeI12 h
  case addRi | subRi | undef18Ri | undef19Ri | xorRi | andRi | orRi | shlRi | shrRi | asrRi | ifEqRi | ifNeRi | ifLtRi |
      ifGeRi | ifUltRi | ifUgeRi => exact decodeRecord_encodeRi6 _ (by dsimp only [Instr.record]; decide) h
  all_goals exact decodeRecord_encodeRr _ _ _

/-- An instruction is the row of the opcode table that its own record stands for (R103). -/
@[simp] theorem toInstr_record (i : Instr) : i.record.toInstr = i := by
  cases i <;> rfl

/-- Settles O1: the decoder reads back the record, and the record names the instruction. -/
theorem decodeRecoversEncodedFields : Obligations.DecodeRecoversEncodedFields := by
  intro i h
  have hrec := decodeRecord_encode h
  exact ⟨by rw [decode, hrec, toInstr_record], hrec⟩

/-! ### The record of a decoded word (R90, R103) -/

/-- Every opcode number has its RR row. -/
theorem record_instrOfRr (op : BitVec 5) (rd rs : RegNum) : (instrOfRr op rd rs).record = ⟨.rr, op, rd, rs, 0⟩ := by
  obtain ⟨⟨n, hn⟩⟩ := op
  interval_cases n <;> rfl

/-- The rows of each other format cover the opcodes that the format can carry. -/
theorem record_instrOfLs {op : BitVec 5} (rd rs : RegNum) (m : Imm13) (h : 12 ≤ op.toNat ∧ op.toNat < 16) :
    (instrOfLs op rd rs m).record = ⟨.ls, op, rd, rs, m⟩ := by
  obtain ⟨⟨n, hn⟩⟩ := op
  obtain ⟨hlo, hhi⟩ : 12 ≤ n ∧ n < 16 := h
  interval_cases n <;> rfl

theorem record_instrOfRi6 {op : BitVec 5} (rd : RegNum) (m : Imm13) (h : 16 ≤ op.toNat) :
    (instrOfRi6 op rd m).record = ⟨.ri6, op, rd, 0, m⟩ := by
  obtain ⟨⟨n, hn⟩⟩ := op
  have hlo : 16 ≤ n := h
  interval_cases n <;> rfl

theorem record_instrOfRi8 {op : BitVec 5} (rd : RegNum) (m : Imm13) (h : op = Opc.move ∨ op = Opc.undef7) :
    (instrOfRi8 op rd m).record = ⟨.ri8, op, rd, 0, m⟩ := by
  obtain rfl | rfl := h <;> rfl

theorem record_instrOfI11 {op : BitVec 5} (m : Imm13) (h : op = Opc.jump ∨ op = Opc.call) :
    (instrOfI11 op m).record = ⟨.i11, op, 0, 0, m⟩ := by
  obtain rfl | rfl := h <;> rfl

/-- The opcodes that a format's sub-field can spell when OR-ed into its base (R91). -/
theorem lsOpcode_range : ∀ f : BitVec 2,
    12 ≤ (baseLs ||| f.setWidth 5).toNat ∧ (baseLs ||| f.setWidth 5).toNat < 16 := by decide

theorem ri6Opcode_range : ∀ f : BitVec 4, 16 ≤ (baseRi6 ||| f.setWidth 5).toNat := by decide

theorem ri8Opcode_cases : ∀ f : BitVec 1,
    baseRi8 ||| f.setWidth 5 = Opc.move ∨ baseRi8 ||| f.setWidth 5 = Opc.undef7 := by decide

theorem i11Opcode_cases : ∀ f : BitVec 1,
    baseI11 ||| (f.setWidth 5 <<< 1) = Opc.jump ∨ baseI11 ||| (f.setWidth 5 <<< 1) = Opc.call := by decide

/-- The decoded instruction stands for the record it was decoded from: no record of the decoder is outside the table. -/
theorem record_decode (w : Word) : (decode w).record = decodeRecord w := by
  unfold decode decodeRecord
  cases formatOfWord w with
  | rr => exact record_instrOfRr _ _ _
  | ls => exact record_instrOfLs _ _ _ (lsOpcode_range _)
  | ri6 => exact record_instrOfRi6 _ _ (ri6Opcode_range _)
  | ri8 => exact record_instrOfRi8 _ _ (ri8Opcode_cases _)
  | i11 => exact record_instrOfI11 _ (i11Opcode_cases _)
  | i12 => rfl

theorem opcode_decode (w : Word) : (decode w).opcode = (decodeRecord w).opcode :=
  congrArg Decoded.opcode (record_decode w)

end Sys2Proof.Laws

namespace Sys2Proof.Machine

/-! ### Executing an undefined opcode number (R102) -/

/-- The instructions of the nine undefined numbers are the fourteen undefined rows, and each raises the fault. -/
theorem exec_of_unknownOpcode {i : Instr} (s : State) (h : i.opcode ∈ unknownOpcodes) :
    exec i s = .fault (.unknownOpcode i.opcode s.pc) := by
  cases i
  case undef1Rr | undef4Rr | undef5Rr | undef7Rr | undef11Rr | undef14Rr | undef15Rr | undef18Rr | undef19Rr |
      undef14Ls | undef15Ls | undef18Ri | undef19Ri | undef7Ri => rfl
  all_goals
    dsimp only [Instr.opcode, Instr.record] at h
    exact absurd h (by decide)

theorem State.ended_of_running {s : State} (h : s.Running) : s.ended = false := by
  simp [State.ended, h]

theorem step_of_unknownOpcode {s : State} (hs : s.Running) (h : s.fetch.opcode ∈ unknownOpcodes) :
    step s = .fault (.unknownOpcode s.fetch.opcode s.pc) :=
  step_of_fault (State.ended_of_running hs) (exec_of_unknownOpcode s h)

/-! ### What a compare does (R200), and the skip of one slot (R127) -/

theorem compareHolds_ifEq {x y : Word} : CompareHolds Opc.ifEq x y ↔ predEq x y = true := by
  simp [CompareHolds, Opc.ifEq, predEq]

theorem compareHolds_ifNe {x y : Word} : CompareHolds Opc.ifNe x y ↔ predNe x y = true := by
  simp [CompareHolds, Opc.ifNe, predNe]

theorem compareHolds_ifLt {x y : Word} : CompareHolds Opc.ifLt x y ↔ predLt x y = true := by
  simp [CompareHolds, Opc.ifLt, predLt, BitVec.slt_iff_toInt_lt]

theorem compareHolds_ifGe {x y : Word} : CompareHolds Opc.ifGe x y ↔ predGe x y = true := by
  simp [CompareHolds, Opc.ifGe, predGe, BitVec.slt_eq_decide]

theorem compareHolds_ifUlt {x y : Word} : CompareHolds Opc.ifUlt x y ↔ predUlt x y = true := by
  simp [CompareHolds, Opc.ifUlt, predUlt, BitVec.ult_eq_decide]

theorem compareHolds_ifUge {x y : Word} : CompareHolds Opc.ifUge x y ↔ predUge x y = true := by
  simp [CompareHolds, Opc.ifUge, predUge, BitVec.ult_eq_decide]

/-- The instructions numbered 26 and above are the compares, and each sets `skip` unless its predicate holds. -/
theorem exec_compare {i : Instr} (s : State) (h : 26 ≤ i.opcode.toNat) :
    ∃ b : Bool, exec i s = .next (skipUnless b s) ∧
      (CompareHolds i.opcode (leftOf i s) (operandOf i s) ↔ b = true) := by
  cases i
  case ifEqRr | ifEqRi => exact ⟨_, rfl, compareHolds_ifEq⟩
  case ifNeRr | ifNeRi => exact ⟨_, rfl, compareHolds_ifNe⟩
  case ifLtRr | ifLtRi => exact ⟨_, rfl, compareHolds_ifLt⟩
  case ifGeRr | ifGeRi => exact ⟨_, rfl, compareHolds_ifGe⟩
  case ifUltRr | ifUltRi => exact ⟨_, rfl, compareHolds_ifUlt⟩
  case ifUgeRr | ifUgeRi => exact ⟨_, rfl, compareHolds_ifUge⟩
  all_goals
    dsimp only [Instr.opcode, Instr.record] at h
    exact absurd h (by decide)

theorem exec_compare_false {i : Instr} {s : State} (h : 26 ≤ i.opcode.toNat)
    (hfalse : ¬ CompareHolds i.opcode (leftOf i s) (operandOf i s)) : exec i s = .next (s.setSkip true) := by
  obtain ⟨b, hexec, hb⟩ := exec_compare s h
  obtain rfl : b = false := by simpa [hb] using hfalse
  exact hexec

/-- A skip with no immediate extension in the next slot passes that slot alone. -/
theorem finishStep_pc_of_skip {s : State} (hskip : s.skip = true) (h : (s.instrAt (s.pc + 1)).opcode ≠ 9#5) :
    s.finishStep.pc = s.pc + 2 := by
  rw [State.finishStep_pc, if_pos hskip, if_neg (mt (s.isPrefixAt_iff _).1 h)]

/-- Settles O46: the fourteen rows, their numbers, the step that executes one, and the false compare that passes one. -/
theorem undefinedOpcodesAreFatalWhenExecuted : Obligations.UndefinedOpcodesAreFatalWhenExecuted := by
  refine ⟨fun i s h => exec_of_unknownOpcode s h, fun rd rs m => ?numbers, fun s hs h => ?fatal,
    fun s _ hs hcmp hfalse hnext => ?skipped⟩
  case numbers => exact ⟨rfl, rfl, rfl, rfl, rfl, rfl, rfl, rfl, rfl, rfl, rfl, rfl, rfl, rfl⟩
  case fatal =>
    rw [← Laws.opcode_decode] at h ⊢
    exact step_of_unknownOpcode hs h
  case skipped =>
    have hne : (s.instrAt (s.pc + 1)).opcode ≠ 9#5 := by
      intro h9
      rw [h9] at hnext
      exact absurd hnext (by decide)
    exact ⟨_, step_of_exec (State.ended_of_running hs) (exec_compare_false hcmp hfalse),
      finishStep_pc_of_skip rfl hne⟩

end Sys2Proof.Machine
end

section
/-!
SUPPORT. The run loop (spec/40_step_and_operand.md R121, R122, D19): what it answers in each state of the engine and after
each outcome of a step, when it stops on its budget, and the obligation O55.
-/

namespace Sys2Proof.Machine

/-! ### The run loop, one equation per test of the loop (R121, D19) -/

theorem State.status_of_halt {s : State} (h : s.halt = true) : s.status = .halted := by
  simp [State.status, h]

theorem State.status_of_error {s : State} (hhalt : s.halt = false) (herror : s.error = true) : s.status = .errored := by
  simp [State.status, hhalt, herror]

theorem State.status_of_running {s : State} (h : s.Running) : s.status = .running := by
  simp [State.status, h]

/-- The three states of the engine (R120), by the signals that tell them apart. -/
theorem State.engine_cases (s : State) : s.halt = true ∨ (s.halt = false ∧ s.error = true) ∨ s.Running := by
  cases hhalt : s.halt with
  | true => exact .inl rfl
  | false =>
    cases herror : s.error with
    | true => exact .inr (.inl ⟨rfl, rfl⟩)
    | false => exact .inr (.inr ⟨hhalt, herror⟩)

theorem run_of_halt (n : Nat) {s : State} (h : s.halt = true) : run n s = (.halted, s) := by
  cases n <;> simp [run, State.status_of_halt h]

theorem run_of_error (n : Nat) {s : State} (hhalt : s.halt = false) (herror : s.error = true) :
    run n s = (.errored s.errorExitCode, s) := by
  cases n <;> simp [run, State.status_of_error hhalt herror]

theorem run_zero_of_running {s : State} (hs : s.Running) : run 0 s = (.cycleLimitReached, s) := by
  simp [run, State.status_of_running hs]

theorem run_succ_of_next (n : Nat) {s t : State} (hs : s.Running) (h : step s = .next t) :
    run (n + 1) s = run n t := by
  simp [run, State.status_of_running hs, h]

theorem run_succ_of_fault (n : Nat) {s : State} {cause : Fault} (hs : s.Running) (h : step s = .fault cause) :
    run (n + 1) s = (.fatal cause, s) := by
  simp [run, State.status_of_running hs, h]

theorem run_succ_of_refused (n : Nat) {s : State} {reason : Refusal} (hs : s.Running) (h : step s = .refused reason) :
    run (n + 1) s = (.refused reason, s) := by
  simp [run, State.status_of_running hs, h]

/-! ### A run that its budget ends -/

theorem running_of_run_cycleLimit {n : Nat} {s t : State} (h : run n s = (.cycleLimitReached, t)) : s.Running := by
  obtain hhalt | ⟨hhalt, herror⟩ | hs := s.engine_cases
  · rw [run_of_halt n hhalt] at h
    cases h
  · rw [run_of_error n hhalt herror] at h
    cases h
  · exact hs

theorem run_zero_cycleLimit {s t : State} (h : run 0 s = (.cycleLimitReached, t)) : t = s := by
  rw [run_zero_of_running (running_of_run_cycleLimit h)] at h
  cases h
  rfl

/-- Its first step completed, and the rest of the budget ended the rest of the run. -/
theorem run_succ_cycleLimit {n : Nat} {s t : State} (h : run (n + 1) s = (.cycleLimitReached, t)) :
    ∃ u, step s = .next u ∧ run n u = (.cycleLimitReached, t) := by
  have hs := running_of_run_cycleLimit h
  cases hstep : step s with
  | next u => exact ⟨u, rfl, by rwa [run_succ_of_next n hs hstep] at h⟩
  | fault cause =>
    rw [run_succ_of_fault n hs hstep] at h
    cases h
  | refused reason =>
    rw [run_succ_of_refused n hs hstep] at h
    cases h

/-- A run that its budget ends can be taken up again where it stopped, by induction on that budget. -/
theorem run_add_of_cycleLimit {a : Nat} (b : Nat) {s t : State} (h : run a s = (.cycleLimitReached, t)) :
    run (a + b) s = run b t := by
  induction a generalizing s with
  | zero => rw [run_zero_cycleLimit h, Nat.zero_add]
  | succ a ih =>
    obtain ⟨u, hstep, hrest⟩ := run_succ_cycleLimit h
    calc run (a + 1 + b) s
        = run (a + b + 1) s := by rw [Nat.add_right_comm]
      _ = run (a + b) u := run_succ_of_next _ (running_of_run_cycleLimit h) hstep
      _ = run b t := ih hrest

theorem run_one_of_next {s t : State} (hs : s.Running) (h : step s = .next t) (ht : t.Running) :
    run 1 s = (.cycleLimitReached, t) := by
  rw [run_succ_of_next 0 hs h, run_zero_of_running ht]

/-- Settles O55: the continuation after a spent budget, and the run of one step. -/
theorem runIsResumable : Obligations.RunIsResumable :=
  ⟨fun _ b _ _ h => run_add_of_cycleLimit b h, fun _ _ hs h ht => run_one_of_next hs h ht⟩

end Sys2Proof.Machine
end

section
/-!
SUPPORT. HALT (spec/41_control.md R148, spec/60_exceptions.md R224): the word of an RR instruction as the instruction
rules write it, the frames of items 4 to 6, the run that HALT ends, and the obligation O19.
-/

namespace Sys2Proof.Laws

open Sys2Proof.Machine (rrWord)

/-- The five fields of an RR word, placed by shifts (R83, R110): the opcode stands above the two discriminator bits. -/
theorem encodeRr_eq_rrWord (op : BitVec 5) (rd rs : RegNum) :
    encodeRr op rd rs = rrWord rd rs (op.setWidth 16 <<< 2) := by
  apply BitVec.eq_of_getLsbD_eq
  intro i hi
  simp only [encodeRr, rrWord, discRr, BitVec.getLsbD_append, BitVec.getLsbD_or, BitVec.getLsbD_shiftLeft,
    BitVec.getLsbD_setWidth]
  interval_cases i <;> simp

end Sys2Proof.Laws

namespace Sys2Proof.Machine

/-! ### Items 4 to 6 keep the registers and the stores -/

theorem SameRegs.finishStep {s t : State} (h : SameRegs s t) : SameRegs s t.finishStep := fun q => by
  rw [State.finishStep_reg, h q]

theorem SameStores.finishStep {s t : State} (h : SameStores s t) : SameStores s t.finishStep := by
  obtain ⟨hram, hpmem, hout⟩ := h
  refine ⟨fun a => ?_, fun a => ?_, ?_⟩
  · rw [State.finishStep_ram, hram]
  · rw [State.finishStep_pmem, hpmem]
  · rw [State.finishStep_out, hout]

/-! ### HALT, in `exec`, in the step and in the run loop -/

theorem exec_halt (rd rs : RegNum) (s : State) : exec (.halt rd rs) s = .next s.setHalt := rfl

theorem sameRegs_setHalt (s : State) : SameRegs s s.setHalt := s.setHalt_reg

theorem sameStores_setHalt (s : State) : SameStores s s.setHalt := ⟨fun _ => rfl, fun _ => rfl, s.setHalt_out⟩

theorem step_of_fetch_halt {rd rs : RegNum} {s : State} (hs : s.Running) (h : s.fetch = .halt rd rs) :
    step s = .next s.setHalt.finishStep :=
  step_of_exec (State.ended_of_running hs) (by rw [h, exec_halt])

/-- The loop finds `halt` set after the step, whatever is left of the budget (R121). -/
theorem run_succ_of_fetch_halt {rd rs : RegNum} {s : State} (n : Nat) (hs : s.Running) (h : s.fetch = .halt rd rs) :
    run (n + 1) s = (.halted, s.setHalt.finishStep) := by
  have hhalt : s.setHalt.finishStep.halt = true := by rw [State.finishStep_halt, State.setHalt_halt]
  rw [run_succ_of_next n hs (step_of_fetch_halt hs h), run_of_halt n hhalt]

/-- Settles O19: what HALT leaves unchanged, its word, and the run that ends on it. -/
theorem haltEndsTheRunWithZero : Obligations.HaltEndsTheRunWithZero := by
  refine ⟨fun rd rs s => ?frame, fun rd rs => ?word, fun rd rs s n hs h => ?run, ?code⟩
  case frame =>
    exact ⟨s.setHalt, exec_halt rd rs s, s.setHalt_halt, s.setHalt_error, sameRegs_setHalt s, s.setHalt_pc,
      s.setHalt_skip, s.setHalt_latch, s.setHalt_cycle, sameStores_setHalt s⟩
  case word => exact Laws.encodeRr_eq_rrWord Opc.halt rd rs
  case run =>
    exact ⟨s.setHalt.finishStep, run_succ_of_fetch_halt n hs h, (sameRegs_setHalt s).finishStep,
      (sameStores_setHalt s).finishStep⟩
  case code => rfl

end Sys2Proof.Machine
end

section
/-!
SUPPORT. MOVE (spec/42_imm_and_move.md R163): the frame of a register write, the immediate operand with and without a
valid latch, the word of an RI8 instruction as its instruction rule writes it, and the obligation O22.
-/

namespace Sys2Proof.Laws

/-- The four fields of an RI8 word, placed by shifts (R86, R110): of the opcode only bit 0 stands in the word. -/
theorem encodeRi8_eq_fields (op : BitVec 5) (rd : RegNum) (m : Imm13) :
    encodeRi8 op rd m = rd.setWidth 16 <<< 12 ||| (m.setWidth 8).setWidth 16 <<< 4 |||
      ((op.setWidth 1).setWidth 16 <<< 3 ||| discRi8.setWidth 16) := by
  apply BitVec.eq_of_getLsbD_eq
  intro i hi
  simp only [encodeRi8, discRi8, BitVec.getLsbD_append, BitVec.getLsbD_or, BitVec.getLsbD_shiftLeft,
    BitVec.getLsbD_setWidth, BitVec.getLsbD_extractLsb']
  interval_cases i <;> simp

end Sys2Proof.Laws

namespace Sys2Proof.Machine

/-! ### A register write changes that register alone -/

theorem sameControl_setReg (s : State) (rd : RegNum) (v : Word) : SameControl s (s.setReg rd v) :=
  ⟨s.setReg_latch rd v, s.setReg_halt rd v, s.setReg_error rd v, s.setReg_cycle rd v⟩

theorem sameStores_setReg (s : State) (rd : RegNum) (v : Word) : SameStores s (s.setReg rd v) :=
  ⟨fun _ => by rw [State.setReg_ram], fun _ => by rw [State.setReg_pmem], s.setReg_out rd v⟩

theorem onlyRegister_setReg (s : State) (rd : RegNum) (v : Word) : OnlyRegister rd v s (s.setReg rd v) :=
  ⟨s.setReg_reg_self rd v, fun _ hq => s.setReg_reg_of_ne v hq, s.setReg_pc rd v, s.setReg_skip rd v,
    sameControl_setReg s rd v, sameStores_setReg s rd v⟩

/-! ### The immediate operand, by the latch's validity (R123, D10) -/

theorem operandImm_of_invalid {s : State} (imm13 : Imm13) (h : s.latch.valid = false) :
    operandImm s imm13 = imm13.signExtend 16 := by
  simp [operandImm, h]

theorem operandImm_of_valid {s : State} (imm13 : Imm13) (h : s.latch.valid = true) :
    operandImm s imm13 = s.latch.value.extractLsb' 4 12 ++ imm13.extractLsb' 0 4 := by
  simp [operandImm, h]

/-- The 13-bit immediate fits a word, so the operand has its signed value (R96). -/
theorem toInt_operandImm_of_invalid {s : State} (imm13 : Imm13) (h : s.latch.valid = false) :
    (operandImm s imm13).toInt = imm13.toInt := by
  rw [operandImm_of_invalid imm13 h, BitVec.toInt_signExtend_of_le (by decide)]

/-! ### MOVE -/

theorem exec_moveRr (rd rs : RegNum) (s : State) : exec (.moveRr rd rs) s = .next (s.setReg rd (s.reg rs)) := rfl

theorem exec_moveRi (rd : RegNum) (imm13 : Imm13) (s : State) :
    exec (.moveRi rd imm13) s = .next (s.setReg rd (operandImm s imm13)) := rfl

/-- Settles O22: both forms are one register write, of the source register or of the immediate operand. -/
theorem moveCopiesTheOperand : Obligations.MoveCopiesTheOperand := by
  refine ⟨fun rd rs s => ?register, fun rd imm13 s => ?immediate, fun rd rs => ?wordRr, fun rd imm13 => ?wordRi⟩
  case register => exact ⟨_, exec_moveRr rd rs s, onlyRegister_setReg s rd (s.reg rs)⟩
  case immediate =>
    refine ⟨_, exec_moveRi rd imm13 s, onlyRegister_setReg s rd (operandImm s imm13),
      fun hinvalid => ?_, fun hvalid => ?_⟩
    · rw [State.setReg_reg_self, toInt_operandImm_of_invalid imm13 hinvalid]
    · rw [State.setReg_reg_self, operandImm_of_valid imm13 hvalid]
  case wordRr => exact Laws.encodeRr_eq_rrWord Opc.move rd rs
  case wordRi => exact Laws.encodeRi8_eq_fields Opc.move rd imm13

end Sys2Proof.Machine
end

section
/-!
SUPPORT. LOAD and STORE (spec/43_load_store.md R170, R171): the word of an LS instruction as the instruction rules write
it, the effective address, the frames of a RAM write and of an output, and the obligations O24 and O25.
-/

namespace Sys2Proof.Laws

open Sys2Proof.Machine (lsWord)

/-- The five fields of an LS word, placed by shifts (R84, R110): of the opcode only the low two bits stand in the word. -/
theorem encodeLs_eq_lsWord (op : BitVec 5) (rd rs : RegNum) (m : Imm13) :
    encodeLs op rd rs m = lsWord rd rs m ((op.setWidth 2).setWidth 16 <<< 2 ||| discLs.setWidth 16) := by
  apply BitVec.eq_of_getLsbD_eq
  intro i hi
  simp only [encodeLs, lsWord, discLs, BitVec.getLsbD_append, BitVec.getLsbD_or, BitVec.getLsbD_shiftLeft,
    BitVec.getLsbD_setWidth, BitVec.getLsbD_extractLsb']
  interval_cases i <;> simp

end Sys2Proof.Laws

namespace Sys2Proof.Machine

/-! ### The effective address (R170) -/

theorem toNat_effectiveAddress (s : State) (rs : RegNum) (imm13 : Imm13) :
    (effectiveAddress s rs imm13).toNat = ((s.reg rs).toNat + (operandImm s imm13).toNat) % 65536 :=
  BitVec.toNat_add (s.reg rs) (operandImm s imm13)

/-! ### LOAD -/

theorem exec_load (rd rs : RegNum) (imm13 : Imm13) (s : State) :
    exec (.load rd rs imm13) s = loadWord rd (effectiveAddress s rs imm13) s := rfl

/-- Settles O24: at a mapped address a load is one register write, and at 0xFFFF the bus does not answer. -/
theorem loadReadsTheAddressedWord : Obligations.LoadReadsTheAddressedWord := by
  refine ⟨fun rs imm13 s => toNat_effectiveAddress s rs imm13, fun rd rs imm13 s hea => ?mapped,
    fun rd rs imm13 s hea => ?unmapped, fun rd rs imm13 => ?word⟩
  case mapped =>
    exact ⟨_, (exec_load rd rs imm13 s).trans (loadWord_mapped rd s hea), onlyRegister_setReg s rd _⟩
  case unmapped => rw [exec_load, hea, loadWord_unmapped]
  case word => exact Laws.encodeLs_eq_lsWord Opc.load rd rs imm13

/-! ### Neither a RAM write nor an output changes a register or the control state -/

theorem sameRegs_setRam (s : State) (m : Memory) : SameRegs s (s.setRam m) := s.setRam_reg m

theorem sameControl_setRam (s : State) (m : Memory) : SameControl s (s.setRam m) :=
  ⟨s.setRam_latch m, s.setRam_halt m, s.setRam_error m, s.setRam_cycle m⟩

theorem sameRegs_emit (s : State) (bytes : List Byte) : SameRegs s (s.emit bytes) := s.emit_reg bytes

theorem sameControl_emit (s : State) (bytes : List Byte) : SameControl s (s.emit bytes) :=
  ⟨s.emit_latch bytes, s.emit_halt bytes, s.emit_error bytes, s.emit_cycle bytes⟩

/-! ### STORE -/

theorem exec_store (rd rs : RegNum) (imm13 : Imm13) (s : State) :
    exec (.store rd rs imm13) s = storeWord (effectiveAddress s rs imm13) (s.reg rd) s := rfl

/-- Settles O25, device by device: at 0xFF00 a store is one output, at any other mapped address one RAM write, and at
0xFFFF the bus does not answer. -/
theorem storeWritesTheAddressedWord : Obligations.StoreWritesTheAddressedWord := by
  refine ⟨fun rd rs imm13 s ea hwf hea hm => ?mapped, fun rd rs imm13 s hea => ?unmapped, fun rd rs imm13 => ?word⟩
  case mapped =>
    rw [exec_store, ← hea]
    by_cases hc : ea = 0xFF00#16
    · subst hc
      refine ⟨_, storeWord_char (s.reg rd) s, sameRegs_emit s _, s.emit_pc _, s.emit_skip _, sameControl_emit s _,
        fun _ => by rw [State.emit_pmem], fun _ _ => by rw [State.emit_ram], fun hram => absurd rfl hram,
        fun _ => ⟨by rw [State.emit_ram], fun hbyte => ?_, fun hcr => ?_⟩⟩
      · rw [State.emit_out, charBytes_of_ne_carriageReturn hbyte]
      · rw [State.emit_out, charBytes_of_carriageReturn hcr]
    · refine ⟨_, storeWord_ram (s.reg rd) s hm hc, sameRegs_setRam s _, s.setRam_pc _, s.setRam_skip _,
        sameControl_setRam s _, fun _ => by rw [State.setRam_pmem], fun a ha => ?_, fun _ => ⟨?_, s.setRam_out _⟩,
        fun hchar => absurd hchar hc⟩
      · rw [State.setRam_ram, Memory.read_write hwf, if_neg ha]
      · rw [State.setRam_ram, Memory.read_write hwf, if_pos rfl]
  case unmapped => rw [exec_store, hea, storeWord_unmapped]
  case word => exact Laws.encodeLs_eq_lsWord Opc.store rd rs imm13

end Sys2Proof.Machine
end

section
/-!
SUPPORT. ADD, SUB, XOR, AND, OR, SHL and SHR (spec/44_alu.md R180 to R187): the word of an RI6 instruction as the
instruction rules write it, the two forms of a two-address operation, the arithmetic of each operation, and the
obligations O32 to O38.
-/

namespace Sys2Proof.Laws

open Sys2Proof.Machine (ri6Word)

/-- The four fields of an RI6 word, placed by shifts (R85, R110): of the opcode only the low four bits stand in the word. -/
theorem encodeRi6_eq_ri6Word (op : BitVec 5) (rd : RegNum) (m : Imm13) :
    encodeRi6 op rd m = ri6Word rd m ((op.setWidth 4).setWidth 16 <<< 2 ||| discRi6.setWidth 16) := by
  apply BitVec.eq_of_getLsbD_eq
  intro i hi
  simp only [encodeRi6, ri6Word, discRi6, BitVec.getLsbD_append, BitVec.getLsbD_or, BitVec.getLsbD_shiftLeft,
    BitVec.getLsbD_setWidth, BitVec.getLsbD_extractLsb']
  interval_cases i <;> simp

end Sys2Proof.Laws

namespace Sys2Proof.Machine

/-! ### The two forms of a two-address operation (R180) -/

/-- `rr` and `ri` are the register and the immediate form of the operation `alu` with opcode number `op`. -/
structure AluForms (rr : RegNum → RegNum → Instr) (ri : RegNum → Imm13 → Instr) (op : BitVec 5)
    (alu : Word → Word → Word) : Prop where
  exec_rr : ∀ (rd rs : RegNum) (s : State), exec (rr rd rs) s = aluReg alu rd rs s
  exec_ri : ∀ (rd : RegNum) (imm13 : Imm13) (s : State), exec (ri rd imm13) s = aluImm alu rd imm13 s
  record_rr : ∀ rd rs : RegNum, (rr rd rs).record = ⟨.rr, op, rd, rs, 0⟩
  record_ri : ∀ (rd : RegNum) (imm13 : Imm13), (ri rd imm13).record = ⟨.ri6, op, rd, 0, imm13⟩

theorem aluForms_add : AluForms .addRr .addRi Opc.add aluAdd :=
  ⟨fun _ _ _ => rfl, fun _ _ _ => rfl, fun _ _ => rfl, fun _ _ => rfl⟩

theorem aluForms_sub : AluForms .subRr .subRi Opc.sub aluSub :=
  ⟨fun _ _ _ => rfl, fun _ _ _ => rfl, fun _ _ => rfl, fun _ _ => rfl⟩

theorem aluForms_xor : AluForms .xorRr .xorRi Opc.xor aluXor :=
  ⟨fun _ _ _ => rfl, fun _ _ _ => rfl, fun _ _ => rfl, fun _ _ => rfl⟩

theorem aluForms_and : AluForms .andRr .andRi Opc.and aluAnd :=
  ⟨fun _ _ _ => rfl, fun _ _ _ => rfl, fun _ _ => rfl, fun _ _ => rfl⟩

theorem aluForms_or : AluForms .orRr .orRi Opc.or aluOr :=
  ⟨fun _ _ _ => rfl, fun _ _ _ => rfl, fun _ _ => rfl, fun _ _ => rfl⟩

theorem aluForms_shl : AluForms .shlRr .shlRi Opc.shl aluShl :=
  ⟨fun _ _ _ => rfl, fun _ _ _ => rfl, fun _ _ => rfl, fun _ _ => rfl⟩

theorem aluForms_shr : AluForms .shrRr .shrRi Opc.shr aluShr :=
  ⟨fun _ _ _ => rfl, fun _ _ _ => rfl, fun _ _ => rfl, fun _ _ => rfl⟩

/-- Both forms are one register write of the operation's result, so a two-address rule holds once the result does. -/
theorem AluForms.twoAddress {rr : RegNum → RegNum → Instr} {ri : RegNum → Imm13 → Instr} {op : BitVec 5}
    {alu : Word → Word → Word} {result : Word → Word → Word → Prop} (h : AluForms rr ri op alu)
    (hresult : ∀ x y : Word, result x y (alu x y)) :
    TwoAddress rr ri (op.setWidth 16 <<< 2) ((op.setWidth 4).setWidth 16 <<< 2 ||| discRi6.setWidth 16) result := by
  refine ⟨fun rd rs s => ?register, fun rd imm13 s => ?immediate, fun rd rs => ?wordRr, fun rd imm13 => ?wordRi⟩
  case register => exact ⟨_, _, h.exec_rr rd rs s, hresult _ _, onlyRegister_setReg s rd _⟩
  case immediate => exact ⟨_, _, h.exec_ri rd imm13 s, hresult _ _, onlyRegister_setReg s rd _⟩
  case wordRr =>
    rw [encode, h.record_rr]
    exact Laws.encodeRr_eq_rrWord op rd rs
  case wordRi =>
    rw [encode, h.record_ri]
    exact Laws.encodeRi6_eq_ri6Word op rd imm13

/-! ### The arithmetic of each operation -/

theorem toNat_aluAdd (x y : Word) : (aluAdd x y).toNat = (x.toNat + y.toNat) % 65536 :=
  BitVec.toNat_add x y

/-- The machine adds the two's complement of the operand, which is congruent to subtracting it (R182). -/
theorem toNat_aluSub (x y : Word) : ((aluSub x y).toNat : Int) = ((x.toNat : Int) - y.toNat) % 65536 := by
  have hsub : (aluSub x y).toNat = (65536 - y.toNat + x.toNat) % 65536 := BitVec.toNat_sub x y
  have hy : y.toNat < 65536 := y.isLt
  omega

theorem getLsbD_aluXor (x y : Word) (k : Nat) : (aluXor x y).getLsbD k = true ↔ x.getLsbD k ≠ y.getLsbD k := by
  rw [aluXor, BitVec.getLsbD_xor, bne_iff_ne]

theorem getLsbD_aluAnd (x y : Word) (k : Nat) :
    (aluAnd x y).getLsbD k = true ↔ x.getLsbD k = true ∧ y.getLsbD k = true := by
  rw [aluAnd, BitVec.getLsbD_and, Bool.and_eq_true]

theorem getLsbD_aluOr (x y : Word) (k : Nat) :
    (aluOr x y).getLsbD k = true ↔ x.getLsbD k = true ∨ y.getLsbD k = true := by
  rw [aluOr, BitVec.getLsbD_or, Bool.or_eq_true]

/-- The low four bits of the operand are its remainder by 16 (R186). -/
theorem toNat_shiftAmount (y : Word) : (shiftAmount y).toNat = y.toNat % 16 := by
  rw [shiftAmount, BitVec.extractLsb'_toNat, Nat.shiftRight_zero]

theorem toNat_aluShl (x y : Word) : (aluShl x y).toNat = x.toNat * 2 ^ (y.toNat % 16) % 65536 := by
  rw [aluShl, toNat_shiftAmount, BitVec.toNat_shiftLeft, Nat.shiftLeft_eq]

theorem toNat_aluShr (x y : Word) : (aluShr x y).toNat = x.toNat / 2 ^ (y.toNat % 16) := by
  rw [aluShr, toNat_shiftAmount, BitVec.toNat_ushiftRight, Nat.shiftRight_eq_div_pow]

/-! ### The obligations -/

/-- Settles O32. -/
theorem addIsModularSum : Obligations.AddIsModularSum := aluForms_add.twoAddress toNat_aluAdd

/-- Settles O33. -/
theorem subIsModularDifference : Obligations.SubIsModularDifference := aluForms_sub.twoAddress toNat_aluSub

/-- Settles O34. -/
theorem xorIsBitwise : Obligations.XorIsBitwise := aluForms_xor.twoAddress fun x y k _ => getLsbD_aluXor x y k

/-- Settles O35. -/
theorem andIsBitwise : Obligations.AndIsBitwise := aluForms_and.twoAddress fun x y k _ => getLsbD_aluAnd x y k

/-- Settles O36. -/
theorem orIsBitwise : Obligations.OrIsBitwise := aluForms_or.twoAddress fun x y k _ => getLsbD_aluOr x y k

/-- Settles O37: the left shift by the masked amount, read as a product. -/
theorem shlMultipliesByPowerOfTwo : Obligations.ShlMultipliesByPowerOfTwo := aluForms_shl.twoAddress toNat_aluShl

/-- Settles O38: the right shift by the masked amount, read as a quotient. -/
theorem shrDividesUnsigned : Obligations.ShrDividesUnsigned := aluForms_shr.twoAddress toNat_aluShr

end Sys2Proof.Machine
end

section
/-!
SUPPORT. IF.EQ, IF.NE, IF.LT, IF.GE, IF.ULT and IF.UGE (spec/45_compare_skip.md R200 to R206): the frame of a skip-flag
write, the operands of each form by its record, the predicate that each opcode number selects, and the obligations O40 to
O45.
-/

namespace Sys2Proof.Machine

/-! ### A write of the skip flag changes that flag alone -/

theorem sameControl_setSkip (s : State) (b : Bool) : SameControl s (s.setSkip b) :=
  ⟨s.setSkip_latch b, s.setSkip_halt b, s.setSkip_error b, s.setSkip_cycle b⟩

theorem sameStores_setSkip (s : State) (b : Bool) : SameStores s (s.setSkip b) :=
  ⟨fun _ => by rw [State.setSkip_ram], fun _ => by rw [State.setSkip_pmem], s.setSkip_out b⟩

theorem onlySkip_setSkip (s : State) (b : Bool) : OnlySkip b s (s.setSkip b) :=
  ⟨s.setSkip_skip b, s.setSkip_reg b, s.setSkip_pc b, sameControl_setSkip s b, sameStores_setSkip s b⟩

/-! ### A compare writes the skip flag alone, by its predicate (R200) -/

theorem exec_compare_onlySkip {i : Instr} (s : State) (h : 26 ≤ i.opcode.toNat) :
    ∃ t b, exec i s = .next t ∧ OnlySkip b s t ∧
      (CompareHolds i.opcode (leftOf i s) (operandOf i s) → b = s.skip) ∧
      (¬ CompareHolds i.opcode (leftOf i s) (operandOf i s) → b = true) := by
  obtain ⟨b, hexec, hb⟩ := exec_compare s h
  rw [skipUnless_eq] at hexec
  exact ⟨_, _, hexec, onlySkip_setSkip s _, fun hholds => if_pos (hb.1 hholds),
    fun hfails => if_neg (mt hb.2 hfails)⟩

/-! ### The operands of the two forms, read off the record (R123) -/

theorem leftOf_of_record {i : Instr} {d : Decoded} (s : State) (h : i.record = d) : leftOf i s = s.reg d.destReg := by
  rw [leftOf, h]

theorem operandOf_of_record_rr {i : Instr} {op : BitVec 5} {rd rs : RegNum} {imm13 : Imm13} (s : State)
    (h : i.record = ⟨.rr, op, rd, rs, imm13⟩) : operandOf i s = s.reg rs := by
  simp [operandOf, Instr.format, h]

theorem operandOf_of_record_ri6 {i : Instr} {op : BitVec 5} {rd rs : RegNum} {imm13 : Imm13} (s : State)
    (h : i.record = ⟨.ri6, op, rd, rs, imm13⟩) : operandOf i s = operandImm s imm13 := by
  simp [operandOf, Instr.format, h]

/-- The register and the immediate form of a compare number are a compare of the predicate that the number selects. -/
theorem compares_of_record {rr : RegNum → RegNum → Instr} {ri : RegNum → Imm13 → Instr} {op : BitVec 5}
    {holds : Word → Word → Prop} (hop : 26 ≤ op.toNat)
    (hrr : ∀ rd rs : RegNum, (rr rd rs).record = ⟨.rr, op, rd, rs, 0⟩)
    (hri : ∀ (rd : RegNum) (imm13 : Imm13), (ri rd imm13).record = ⟨.ri6, op, rd, 0, imm13⟩)
    (hholds : ∀ x y : Word, CompareHolds op x y ↔ holds x y) :
    Compares rr ri (op.setWidth 16 <<< 2) ((op.setWidth 4).setWidth 16 <<< 2 ||| discRi6.setWidth 16) holds := by
  have opcodeRr (rd rs : RegNum) : (rr rd rs).opcode = op := congrArg Decoded.opcode (hrr rd rs)
  have opcodeRi (rd : RegNum) (imm13 : Imm13) : (ri rd imm13).opcode = op := congrArg Decoded.opcode (hri rd imm13)
  refine ⟨fun rd rs s => ?register, fun rd imm13 s => ?immediate, fun rd rs => ?wordRr, fun rd imm13 => ?wordRi⟩
  case register =>
    have hexec := exec_compare_onlySkip (i := rr rd rs) s (by rwa [opcodeRr])
    rwa [opcodeRr, leftOf_of_record s (hrr rd rs), operandOf_of_record_rr s (hrr rd rs), hholds] at hexec
  case immediate =>
    have hexec := exec_compare_onlySkip (i := ri rd imm13) s (by rwa [opcodeRi])
    rwa [opcodeRi, leftOf_of_record s (hri rd imm13), operandOf_of_record_ri6 s (hri rd imm13), hholds] at hexec
  case wordRr =>
    rw [encode, hrr]
    exact Laws.encodeRr_eq_rrWord op rd rs
  case wordRi =>
    rw [encode, hri]
    exact Laws.encodeRi6_eq_ri6Word op rd imm13

/-! ### The predicate that each compare number selects (R201 to R206) -/

theorem compareHolds_ifEq_iff_toNat_eq (x y : Word) : CompareHolds Opc.ifEq x y ↔ x.toNat = y.toNat := by
  simp [CompareHolds, Opc.ifEq, BitVec.toNat_inj]

theorem compareHolds_ifNe_iff_toNat_ne (x y : Word) : CompareHolds Opc.ifNe x y ↔ x.toNat ≠ y.toNat := by
  simp [CompareHolds, Opc.ifNe, BitVec.toNat_inj]

theorem compareHolds_ifLt_iff_toInt_lt (x y : Word) : CompareHolds Opc.ifLt x y ↔ x.toInt < y.toInt := by
  simp [CompareHolds, Opc.ifLt]

theorem compareHolds_ifGe_iff_toInt_le (x y : Word) : CompareHolds Opc.ifGe x y ↔ y.toInt ≤ x.toInt := by
  simp [CompareHolds, Opc.ifGe]

theorem compareHolds_ifUlt_iff_toNat_lt (x y : Word) : CompareHolds Opc.ifUlt x y ↔ x.toNat < y.toNat := by
  simp [CompareHolds, Opc.ifUlt]

theorem compareHolds_ifUge_iff_toNat_le (x y : Word) : CompareHolds Opc.ifUge x y ↔ y.toNat ≤ x.toNat := by
  simp [CompareHolds, Opc.ifUge]

/-! ### The obligations -/

/-- Settles O40. -/
theorem ifEqSkipsUnlessEqual : Obligations.IfEqSkipsUnlessEqual :=
  compares_of_record (op := Opc.ifEq) (by decide) (fun _ _ => rfl) (fun _ _ => rfl) compareHolds_ifEq_iff_toNat_eq

/-- Settles O41. -/
theorem ifNeSkipsIfEqual : Obligations.IfNeSkipsIfEqual :=
  compares_of_record (op := Opc.ifNe) (by decide) (fun _ _ => rfl) (fun _ _ => rfl) compareHolds_ifNe_iff_toNat_ne

/-- Settles O42: the predicate is on the two signed values, not on the sign of their difference. -/
theorem ifLtComparesSigned : Obligations.IfLtComparesSigned :=
  compares_of_record (op := Opc.ifLt) (by decide) (fun _ _ => rfl) (fun _ _ => rfl) compareHolds_ifLt_iff_toInt_lt

/-- Settles O43. -/
theorem ifGeComparesSigned : Obligations.IfGeComparesSigned :=
  compares_of_record (op := Opc.ifGe) (by decide) (fun _ _ => rfl) (fun _ _ => rfl) compareHolds_ifGe_iff_toInt_le

/-- Settles O44. -/
theorem ifUltComparesUnsigned : Obligations.IfUltComparesUnsigned :=
  compares_of_record (op := Opc.ifUlt) (by decide) (fun _ _ => rfl) (fun _ _ => rfl) compareHolds_ifUlt_iff_toNat_lt

/-- Settles O45. -/
theorem ifUgeComparesUnsigned : Obligations.IfUgeComparesUnsigned :=
  compares_of_record (op := Opc.ifUge) (by decide) (fun _ _ => rfl) (fun _ _ => rfl) compareHolds_ifUge_iff_toNat_le

end Sys2Proof.Machine
end

section
/-!
SUPPORT. ERROR (spec/41_control.md R150, spec/60_exceptions.md R225, D17): the exit code that x[1] gives, the run that
ERROR ends, and the obligation O20.
-/

namespace Sys2Proof.Machine

/-! ### The exit code of `x[1]` -/

theorem State.errorExitCode_of_reg_ne_zero {s : State} (h : s.reg 1 ≠ 0) : s.errorExitCode = (s.reg 1).toNat := if_neg h

theorem State.errorExitCode_of_reg_eq_zero {s : State} (h : s.reg 1 = 0) : s.errorExitCode = 1 := if_pos h

/-- The code is read after the step, from registers that the step may have kept. -/
theorem SameRegs.errorExitCode_eq {s t : State} (h : SameRegs s t) : t.errorExitCode = s.errorExitCode := by
  rw [State.errorExitCode, State.errorExitCode, h 1]

/-! ### ERROR, in `exec`, in the step and in the run loop -/

theorem exec_error (rd rs : RegNum) (s : State) : exec (.error rd rs) s = .next s.setError := rfl

theorem sameRegs_setError (s : State) : SameRegs s s.setError := s.setError_reg

theorem sameStores_setError (s : State) : SameStores s s.setError := ⟨fun _ => rfl, fun _ => rfl, s.setError_out⟩

theorem step_of_fetch_error {rd rs : RegNum} {s : State} (hs : s.Running) (h : s.fetch = .error rd rs) :
    step s = .next s.setError.finishStep :=
  step_of_exec (State.ended_of_running hs) (by rw [h, exec_error])

/-- The loop tests `halt` first and finds it still clear, then finds `error` set (R121): the code is that of the
registers before the step, which ERROR keeps. -/
theorem run_succ_of_fetch_error {rd rs : RegNum} {s : State} (n : Nat) (hs : s.Running) (h : s.fetch = .error rd rs) :
    run (n + 1) s = (.errored s.errorExitCode, s.setError.finishStep) := by
  have hhalt : s.setError.finishStep.halt = false := by rw [State.finishStep_halt, State.setError_halt, hs.1]
  have herror : s.setError.finishStep.error = true := by rw [State.finishStep_error, State.setError_error]
  rw [run_succ_of_next n hs (step_of_fetch_error hs h), run_of_error n hhalt herror,
    (sameRegs_setError s).finishStep.errorExitCode_eq]

/-- Settles O20: what ERROR leaves unchanged, and the run that ends on it with the code of `x[1]`. -/
theorem errorEndsTheRunWithRegisterOne : Obligations.ErrorEndsTheRunWithRegisterOne := by
  refine ⟨fun rd rs s => ?frame, fun rd rs s n hs h => ?run⟩
  case frame =>
    exact ⟨s.setError, exec_error rd rs s, s.setError_error, s.setError_halt, sameRegs_setError s, s.setError_pc,
      s.setError_skip, s.setError_latch, s.setError_cycle, sameStores_setError s⟩
  case run =>
    exact ⟨s.errorExitCode, s.setError.finishStep, run_succ_of_fetch_error n hs h, (sameRegs_setError s).finishStep,
      (sameStores_setError s).finishStep, State.errorExitCode_of_reg_ne_zero, State.errorExitCode_of_reg_eq_zero, rfl⟩

end Sys2Proof.Machine
end

section
/-!
SUPPORT. The boot (spec/70_reset_and_hazards.md section 2): what a load of consecutive words leaves at each address, the
state a successful boot answers, and the obligation O58.
-/

namespace Sys2Proof.Machine

/-! ### A read after a load of consecutive words (R252, R253) -/

/-- The start is a natural number, so that the address after a last word in slot 0xFFFF is 65536, above every slot, and
not the wrapped 0. -/
theorem Memory.read_load {m : Memory} (hm : m.wf = true) (k : Nat) (ws : List Word) (hfit : k + ws.length ≤ 65536)
    (b : Word) :
    (m.load (BitVec.ofNat 16 k) ws).read b =
      if k ≤ b.toNat then ws.getD (b.toNat - k) (m.read b) else m.read b := by
  induction ws generalizing m k with
  | nil => simp [Memory.load]
  | cons w ws ih =>
    rw [List.length_cons] at hfit
    have hnext : BitVec.ofNat 16 k + 1 = BitVec.ofNat 16 (k + 1) := (BitVec.ofNat_add k 1).symm
    have hstart : b = BitVec.ofNat 16 k ↔ b.toNat = k := by bv_omega
    rw [Memory.load, hnext, ih (Memory.write_wf hm _ w) (k + 1) (by omega), Memory.read_write hm]
    rcases Nat.lt_trichotomy b.toNat k with hlt | heq | hgt
    case inl => simp [hstart, Nat.not_le.2 hlt, Nat.ne_of_lt hlt, Nat.not_le.2 (Nat.lt_succ_of_lt hlt)]
    case inr.inl => simp [hstart, heq]
    case inr.inr =>
      have htail : b.toNat - k = b.toNat - (k + 1) + 1 := by omega
      rw [if_pos (Nat.succ_le_of_lt hgt), if_neg (mt hstart.1 (Nat.ne_of_gt hgt)), if_pos (Nat.le_of_lt hgt), htail,
        List.getD_cons_succ]

/-- A load into slot 0 onward: the words, then what the memory held before. -/
theorem Memory.read_load_zero {m : Memory} (hm : m.wf = true) {ws : List Word} (hfit : ws.length ≤ 65536) (b : Word) :
    (m.load 0x0000#16 ws).read b = ws.getD b.toNat (m.read b) := by
  rw [Memory.read_load hm 0 ws (by omega), if_pos (Nat.zero_le _), Nat.sub_zero]

/-! ### The booted state (R250 to R254) -/

theorem boot_eq_ok_iff {programWords dataWords : List Word} {s : State} :
    boot programWords dataWords = .ok s ↔
      programWords.length ≤ 65536 ∧ dataWords.length ≤ 65536 ∧
        (State.reset.loadProgram programWords).preload dataWords = s := by
  unfold boot
  split
  case isTrue hp => simp [Nat.not_le.2 hp]
  case isFalse hp =>
    split
    case isTrue hd => simp [Nat.not_le.2 hd]
    case isFalse hd => simp [Nat.not_lt.1 hp, Nat.not_lt.1 hd]

@[simp] theorem State.preload_pmem (s : State) (ws : List Word) : (s.preload ws).pmem = s.pmem := rfl
@[simp] theorem State.preload_pc (s : State) (ws : List Word) : (s.preload ws).pc = s.pc := rfl
@[simp] theorem State.loadProgram_pmem (s : State) (ws : List Word) :
    (s.loadProgram ws).pmem = s.pmem.load 0x0000#16 ws := rfl
@[simp] theorem State.loadProgram_pc (s : State) (ws : List Word) : (s.loadProgram ws).pc = s.pc := rfl

theorem boot_pc {programWords dataWords : List Word} {s : State} (h : boot programWords dataWords = .ok s) :
    s.pc = 0x0000#16 := by
  obtain ⟨-, -, rfl⟩ := boot_eq_ok_iff.1 h
  rw [State.preload_pc, State.loadProgram_pc]
  rfl

/-- The data pre-load leaves program memory alone, and reset leaves it blank. -/
theorem boot_pmem_read {programWords dataWords : List Word} {s : State} (h : boot programWords dataWords = .ok s)
    (a : Word) : s.pmem.read a = programWords.getD a.toNat 0x0000#16 := by
  obtain ⟨hp, -, rfl⟩ := boot_eq_ok_iff.1 h
  rw [State.preload_pmem, State.loadProgram_pmem]
  exact Memory.read_load_zero (m := []) rfl hp a

theorem boot_instrAt {programWords dataWords : List Word} {s : State} (h : boot programWords dataWords = .ok s)
    (a : Word) : s.instrAt a = decode (programWords.getD a.toNat 0x0000#16) := by
  rw [State.instrAt, boot_pmem_read h]

theorem decode_zero : decode 0x0000#16 = .nop 0 0 := by decide

/-- Settles O58: every slot decodes its program word, and there is none at or beyond the program's length. -/
theorem programLoadFillsTheTable : Obligations.ProgramLoadFillsTheTable := by
  refine fun programWords dataWords s h => ⟨boot_instrAt h, fun a ha => ?beyond, ?first⟩
  case beyond => rw [boot_instrAt h, List.getD_eq_default _ _ ha, decode_zero]
  case first =>
    rw [State.fetch, boot_pc h, boot_instrAt h]
    rfl

end Sys2Proof.Machine
end

section
/-!
SUPPORT. The step-boundary invariant (spec/10_state.md sections 4 and 5, R29, R32, R229): what each effect of an instruction
does to the latch, the signals and RAM, and the obligations O49 and O50.
-/

namespace Sys2Proof.Machine

/-! ### The value that IMM loads (R160, D11) -/

/-- The 12 bits of the immediate, above a zero nibble. -/
theorem signExtend_shiftLeft_four (k : Imm13) : k.signExtend 16 <<< 4 = k.extractLsb' 0 12 ++ 0#4 := by
  apply BitVec.eq_of_getLsbD_eq
  intro i hi
  simp only [BitVec.getLsbD_shiftLeft, BitVec.getLsbD_signExtend, BitVec.getLsbD_append, BitVec.getLsbD_extractLsb']
  interval_cases i <;> simp

theorem extractLsb'_append_zero_nibble (v : BitVec 12) : (v ++ 0#4).extractLsb' 0 4 = 0#4 := by
  rw [BitVec.extractLsb'_append_eq_of_add_le (by decide), BitVec.extractLsb'_eq_self]

/-! ### What each effect does to the latch, the signals and RAM -/

theorem Effect.latch_cases {s t : State} (h : Effect s t) :
    t.latch = s.latch ∨ ∃ v : BitVec 12, t.latch = ⟨v ++ 0#4, true, true⟩ := by
  cases h with
  | latch k => exact .inr ⟨_, by rw [State.setLatch_latch, signExtend_shiftLeft_four]⟩
  | _ => exact .inl rfl

/-- At most one signal is set, and none is cleared. -/
theorem Effect.signals_cases {s t : State} (h : Effect s t) :
    (t.halt = s.halt ∧ t.error = s.error) ∨ (t.halt = true ∧ t.error = s.error) ∨ (t.halt = s.halt ∧ t.error = true) := by
  cases h with
  | halt => exact .inr (.inl ⟨rfl, rfl⟩)
  | error => exact .inr (.inr ⟨rfl, rfl⟩)
  | _ => exact .inl ⟨rfl, rfl⟩

theorem Effect.ram_wf {s t : State} (h : Effect s t) (hwf : s.ram.wf = true) : t.ram.wf = true := by
  cases h with
  | store ea v => exact Memory.write_wf hwf ea v
  | _ => exact hwf

/-! ### Item 4: the latch lives through the step that loaded it alone (R126) -/

theorem State.finishStep_latch_clear {s : State} (h : s.latch.expireNext = false) : s.finishStep.latch = Latch.clear := by
  rw [State.finishStep_latch, h]
  rfl

theorem State.finishStep_latch_loaded {s : State} {v : Word} (h : s.latch = ⟨v, true, true⟩) :
    s.finishStep.latch = ⟨v, true, false⟩ := by
  rw [State.finishStep_latch, h]
  rfl

/-! ### The invariant -/

/-- An instruction's effect and items 4 to 6 lead from a running boundary state to a boundary state. -/
theorem Effect.finishStep_boundary {s t : State} (h : Effect s t) (hb : s.Boundary) (hs : s.Running) :
    t.finishStep.Boundary := by
  obtain ⟨-, hexpire, -, -, -, hpmem, hram⟩ := hb
  obtain ⟨hhalt, herror⟩ := hs
  have hlatch : t.finishStep.latch = Latch.clear ∨ ∃ v : BitVec 12, t.finishStep.latch = ⟨v ++ 0#4, true, false⟩ := by
    obtain hkept | ⟨v, hloaded⟩ := h.latch_cases
    · exact .inl (State.finishStep_latch_clear (by rw [hkept, hexpire]))
    · exact .inr ⟨v, State.finishStep_latch_loaded hloaded⟩
  have hsignals : ¬ (t.halt = true ∧ t.error = true) := by
    obtain ⟨h1, h2⟩ | ⟨h1, h2⟩ | ⟨h1, h2⟩ := h.signals_cases <;> simp [h1, h2, hhalt, herror]
  refine ⟨t.finishStep_skip, ?expire, ?blank, ?nibble, ?signals, ?pmem, ?ram⟩
  case expire =>
    obtain hl | ⟨v, hl⟩ := hlatch <;> rw [hl]
    rfl
  case blank =>
    obtain hl | ⟨v, hl⟩ := hlatch <;> rw [hl]
    · exact fun _ => rfl
    · exact nofun
  case nibble =>
    obtain hl | ⟨v, hl⟩ := hlatch <;> rw [hl]
    · exact nofun
    · exact fun _ => extractLsb'_append_zero_nibble v
  case signals => rwa [State.finishStep_halt, State.finishStep_error]
  case pmem => rw [State.finishStep_pmem, h.pmem_eq, hpmem]
  case ram => rw [State.finishStep_ram, h.ram_wf hram]

theorem State.running_of_not_ended {s : State} (h : s.ended = false) : s.Running := by
  simpa [State.ended] using h

/-- What a completed step of a running machine did: its instruction, then items 4 to 6. -/
theorem step_next_of_running {s t : State} (hs : s.Running) (h : step s = .next t) :
    ∃ u, exec s.fetch s = .next u ∧ t = u.finishStep := by
  obtain ⟨hended, -⟩ | ⟨-, hexec⟩ := step_next h
  · rw [State.ended_of_running hs] at hended
    cases hended
  · exact hexec

/-- Settles O49. -/
theorem resetIsAtAStepBoundary : Obligations.ResetIsAtAStepBoundary :=
  ⟨rfl, rfl, fun _ => rfl, nofun, nofun, rfl, rfl⟩

/-- Settles O50: an ended machine stays as it is, and a running one has an effect that keeps the invariant. -/
theorem stepKeepsTheBoundaryInvariant : Obligations.StepKeepsTheBoundaryInvariant := by
  intro s t hb h
  obtain ⟨-, rfl⟩ | ⟨hended, u, hexec, rfl⟩ := step_next h
  · exact hb
  · exact (exec_next hexec).finishStep_boundary hb (State.running_of_not_ended hended)

end Sys2Proof.Machine
end

section
/-!
SUPPORT. What a step changes, by instruction (spec/40_step_and_operand.md R133, section 4; spec/20_memory.md R67;
spec/10_state.md section 6): the effect that each instruction has, and the obligations O12, O30, O51 and O52.
-/

namespace Sys2Proof.Machine

/-! ### Which instruction has which effect -/

/-- `InstrEffect s i t`: from `s`, the instruction `i` can complete in `t`. It refines `Effect` by the instruction. -/
inductive InstrEffect (s : State) : Instr → State → Prop where
  | nop (rd rs : RegNum) : InstrEffect s (.nop rd rs) s
  | halt (rd rs : RegNum) : InstrEffect s (.halt rd rs) s.setHalt
  | error (rd rs : RegNum) : InstrEffect s (.error rd rs) s.setError
  | imm (k : Imm13) : InstrEffect s (.imm k) (s.setLatch ⟨k.signExtend 16 <<< 4, true, true⟩)
  | jumpRr (rd rs : RegNum) : InstrEffect s (.jumpRr rd rs) (s.setPc (s.reg rs))
  | jumpImm (k : Imm13) : InstrEffect s (.jumpImm k) (s.setPc (s.pc + operandImm s k))
  | callRr (rd rs : RegNum) : InstrEffect s (.callRr rd rs) (linkAndGo (s.reg rs) s)
  | callImm (k : Imm13) : InstrEffect s (.callImm k) (linkAndGo (s.pc + operandImm s k) s)
  | register {i : Instr} {rd : RegNum} (v : Word) (hdest : destinationOf i = some rd) : InstrEffect s i (s.setReg rd v)
  | compare {i : Instr} (b : Bool) (hop : 26 ≤ i.opcode.toNat) : InstrEffect s i (skipUnless b s)
  | store {rd rs : RegNum} {m : Imm13} (hchar : effectiveAddress s rs m ≠ 0xFF00#16)
      (hmapped : effectiveAddress s rs m ≠ 0xFFFF#16) :
      InstrEffect s (.store rd rs m) (s.setRam (s.ram.write (effectiveAddress s rs m) (s.reg rd)))
  | output {rd rs : RegNum} {m : Imm13} (hchar : effectiveAddress s rs m = 0xFF00#16) :
      InstrEffect s (.store rd rs m) (s.emit (charBytes (s.reg rd)))

theorem exec_load_effect {rd rs : RegNum} {m : Imm13} {s t : State} (h : exec (.load rd rs m) s = .next t) :
    InstrEffect s (.load rd rs m) t := by
  obtain ⟨-, rfl⟩ := loadWord_next h
  exact .register _ rfl

theorem exec_store_effect {rd rs : RegNum} {m : Imm13} {s t : State} (h : exec (.store rd rs m) s = .next t) :
    InstrEffect s (.store rd rs m) t := by
  obtain ⟨hc, rfl⟩ | ⟨hc, hm, rfl⟩ := storeWord_next h
  · exact .output hc
  · exact .store hc hm

theorem exec_compare_effect {i : Instr} {s t : State} (hop : 26 ≤ i.opcode.toNat) (h : exec i s = .next t) :
    InstrEffect s i t := by
  obtain ⟨b, hexec, -⟩ := exec_compare s hop
  rw [hexec] at h
  cases h
  exact .compare b hop

/-- Every instruction that completes has its own effect; the undefined rows do not complete. -/
theorem exec_instrEffect {i : Instr} {s t : State} (h : exec i s = .next t) : InstrEffect s i t := by
  cases i
  case load => exact exec_load_effect h
  case store => exact exec_store_effect h
  case ifEqRr | ifEqRi | ifNeRr | ifNeRi | ifLtRr | ifLtRi | ifGeRr | ifGeRi | ifUltRr | ifUltRi | ifUgeRr | ifUgeRi =>
    exact exec_compare_effect (by dsimp only [Instr.opcode, Instr.record]; decide) h
  case nop => cases h; exact .nop _ _
  case halt => cases h; exact .halt _ _
  case error => cases h; exact .error _ _
  case imm => cases h; exact .imm _
  case jumpRr => cases h; exact .jumpRr _ _
  case jumpImm => cases h; exact .jumpImm _
  case callRr => cases h; exact .callRr _ _
  case callImm => cases h; exact .callImm _
  case moveRr | moveRi | addRr | addRi | subRr | subRi | xorRr | xorRi | andRr | andRi | orRr | orRi | shlRr | shlRi |
      shrRr | shrRi | asrRr | asrRi =>
    cases h
    exact .register _ rfl
  case undef1Rr | undef4Rr | undef5Rr | undef7Rr | immRr | undef11Rr | loadRr | storeRr | undef14Rr | undef15Rr |
      undef18Rr | undef19Rr | undef14Ls | undef15Ls | undef18Ri | undef19Ri | undef7Ri =>
    cases h

/-- The instruction that completed had the effect that its row of the table names. -/
theorem step_instrEffect {s t : State} (hs : s.Running) (h : step s = .next t) :
    ∃ u, InstrEffect s s.fetch u ∧ t = u.finishStep := by
  obtain ⟨u, hexec, ht⟩ := step_next_of_running hs h
  exact ⟨u, exec_instrEffect hexec, ht⟩

/-! ### What each field owes to the instruction -/

/-- A register write is one of the destination, and CALL's is one of `x[0]` (R23). -/
theorem InstrEffect.reg_eq {s t : State} {i : Instr} (h : InstrEffect s i t) {q : RegNum} (hq : destinationOf i ≠ some q) :
    t.reg q = s.reg q := by
  cases h with
  | register v hdest => exact s.setReg_reg_of_ne v fun e => hq (by rw [hdest, e])
  | callRr | callImm => exact s.setReg_reg_of_ne s.pc fun e => hq (by rw [e]; rfl)
  | compare b => cases b <;> rfl
  | _ => rfl

theorem InstrEffect.ram_out_eq {s t : State} {i : Instr} (h : InstrEffect s i t)
    (hstore : ∀ (rd rs : RegNum) (m : Imm13), i ≠ .store rd rs m) : t.ram = s.ram ∧ t.out = s.out := by
  cases h with
  | store | output => exact absurd rfl (hstore _ _ _)
  | compare b => cases b <;> exact ⟨rfl, rfl⟩
  | _ => exact ⟨rfl, rfl⟩

theorem InstrEffect.latch_eq {s t : State} {i : Instr} (h : InstrEffect s i t) (himm : ∀ k : Imm13, i ≠ .imm k) :
    t.latch = s.latch := by
  cases h with
  | imm k => exact absurd rfl (himm k)
  | compare b => cases b <;> rfl
  | _ => rfl

theorem InstrEffect.halt_eq {s t : State} {i : Instr} (h : InstrEffect s i t) (hhalt : ∀ rd rs : RegNum, i ≠ .halt rd rs) :
    t.halt = s.halt := by
  cases h with
  | halt rd rs => exact absurd rfl (hhalt rd rs)
  | compare b => cases b <;> rfl
  | _ => rfl

theorem InstrEffect.error_eq {s t : State} {i : Instr} (h : InstrEffect s i t)
    (herror : ∀ rd rs : RegNum, i ≠ .error rd rs) : t.error = s.error := by
  cases h with
  | error rd rs => exact absurd rfl (herror rd rs)
  | compare b => cases b <;> rfl
  | _ => rfl

theorem exec_imm (k : Imm13) (s : State) : exec (.imm k) s = .next (s.setLatch ⟨k.extractLsb' 0 12 ++ 0#4, true, true⟩) := by
  rw [← signExtend_shiftLeft_four]
  rfl

theorem Effect.cycle_eq {s t : State} (h : Effect s t) : t.cycle = s.cycle := by
  cases h <;> rfl

theorem step_cycle {s t : State} (hs : s.Running) (h : step s = .next t) : t.cycle = s.cycle + 1 := by
  obtain ⟨u, hexec, rfl⟩ := step_next_of_running hs h
  rw [State.finishStep_cycle, (exec_next hexec).cycle_eq]

theorem step_of_fetch_imm {k : Imm13} {s : State} (hs : s.Running) (h : s.fetch = .imm k) :
    step s = .next (s.setLatch ⟨k.extractLsb' 0 12 ++ 0#4, true, true⟩).finishStep :=
  step_of_exec (State.ended_of_running hs) (by rw [h, exec_imm])

/-- Any instruction but IMM leaves the latch cleared at the end of its step (R126). -/
theorem step_latch_clear {s t : State} (hb : s.Boundary) (hs : s.Running) (himm : ∀ k : Imm13, s.fetch ≠ .imm k)
    (h : step s = .next t) : t.latch = Latch.clear := by
  obtain ⟨u, heffect, rfl⟩ := step_instrEffect hs h
  obtain ⟨-, hexpire, -⟩ := hb
  exact State.finishStep_latch_clear (by rw [heffect.latch_eq himm, hexpire])

theorem step_latch_of_imm {k : Imm13} {s t : State} (hs : s.Running) (hfetch : s.fetch = .imm k)
    (h : step s = .next t) : t.latch = ⟨k.extractLsb' 0 12 ++ 0#4, true, false⟩ := by
  rw [step_of_fetch_imm hs hfetch] at h
  cases h
  exact State.finishStep_latch_loaded rfl

/-- Settles O12, by whether the fetched instruction is an IMM. -/
theorem latchIsValidExactlyAfterImm : Obligations.LatchIsValidExactlyAfterImm := by
  intro s t hb hs h
  have hloaded (k : Imm13) (hfetch : s.fetch = .imm k) := step_latch_of_imm hs hfetch h
  refine ⟨⟨fun hvalid => ?imm, ?valid⟩, fun k hfetch => by rw [hloaded k hfetch]⟩
  case imm =>
    by_contra hno
    rw [step_latch_clear hb hs (not_exists.1 hno) h] at hvalid
    cases hvalid
  case valid =>
    rintro ⟨k, hfetch⟩
    rw [hloaded k hfetch]

/-! ### The two shadowed words and the output log (R67, R43) -/

/-- A store that reaches RAM has neither address. -/
theorem Effect.shadowed_read {s t : State} (h : Effect s t) (hwf : s.ram.wf = true) {a : Word}
    (ha : a = 0xFF00#16 ∨ a = 0xFFFF#16) : t.ram.read a = s.ram.read a := by
  cases h with
  | store ea v hc hm =>
    have hne : a ≠ ea := by rintro rfl; exact ha.elim hc hm
    rw [State.setRam_ram, Memory.read_write hwf, if_neg hne]
  | _ => rfl

theorem Effect.out_extends {s t : State} (h : Effect s t) : ∃ bytes : List Byte, t.out = s.out ++ bytes := by
  cases h with
  | output v => exact ⟨charBytes v, rfl⟩
  | _ => exact ⟨[], (List.append_nil s.out).symm⟩

/-- Settles O30. -/
theorem shadowedWordsKeepAndOutputGrows : Obligations.ShadowedWordsKeepAndOutputGrows := by
  intro s t hwf h
  obtain ⟨-, rfl⟩ | ⟨-, u, hexec, rfl⟩ := step_next h
  · exact ⟨rfl, rfl, [], by simp⟩
  · have heffect := exec_next hexec
    rw [State.finishStep_ram, State.finishStep_out]
    exact ⟨heffect.shadowed_read hwf (.inl rfl), heffect.shadowed_read hwf (.inr rfl), heffect.out_extends⟩

/-! ### The frame of a step (R133) -/

theorem step_halt_iff {s t : State} (hs : s.Running) (h : step s = .next t) :
    t.halt = true ↔ ∃ rd rs : RegNum, s.fetch = .halt rd rs := by
  refine ⟨fun hhalt => ?_, ?_⟩
  · obtain ⟨u, heffect, rfl⟩ := step_instrEffect hs h
    by_contra hno
    rw [State.finishStep_halt, heffect.halt_eq fun rd rs hi => hno ⟨rd, rs, hi⟩, hs.1] at hhalt
    cases hhalt
  · rintro ⟨rd, rs, hfetch⟩
    rw [step_of_fetch_halt hs hfetch] at h
    cases h
    rw [State.finishStep_halt, State.setHalt_halt]

theorem step_error_iff {s t : State} (hs : s.Running) (h : step s = .next t) :
    t.error = true ↔ ∃ rd rs : RegNum, s.fetch = .error rd rs := by
  refine ⟨fun herror => ?_, ?_⟩
  · obtain ⟨u, heffect, rfl⟩ := step_instrEffect hs h
    by_contra hno
    rw [State.finishStep_error, heffect.error_eq fun rd rs hi => hno ⟨rd, rs, hi⟩, hs.2] at herror
    cases herror
  · rintro ⟨rd, rs, hfetch⟩
    rw [step_of_fetch_error hs hfetch] at h
    cases h
    rw [State.finishStep_error, State.setError_error]

/-- A completed store emitted at 0xFF00 and wrote one RAM word anywhere else. -/
theorem exec_store_frame {rd rs : RegNum} {m : Imm13} {s t : State} (hwf : s.ram.wf = true)
    (h : exec (.store rd rs m) s = .next t) :
    (∀ a : Word, a ≠ effectiveAddress s rs m → t.ram.read a = s.ram.read a) ∧
      (effectiveAddress s rs m = 0xFF00#16 →
        t.ram.read 0xFF00#16 = s.ram.read 0xFF00#16 ∧ t.out = s.out ++ charBytes (s.reg rd)) ∧
      (effectiveAddress s rs m ≠ 0xFF00#16 → t.out = s.out) := by
  obtain ⟨hc, rfl⟩ | ⟨hc, -, rfl⟩ := storeWord_next h
  · exact ⟨fun _ _ => rfl, fun _ => ⟨rfl, rfl⟩, fun hne => absurd hc hne⟩
  · refine ⟨fun a ha => ?_, fun heq => absurd heq hc, fun _ => rfl⟩
    rw [State.setRam_ram, Memory.read_write hwf, if_neg ha]

/-- Settles O51, field by field: items 4 to 6 keep what the instruction's effect left, and advance the rest. -/
theorem stepChangesOnlyWhatItsInstructionNames : Obligations.StepChangesOnlyWhatItsInstructionNames := by
  intro s t hb hs h
  obtain ⟨-, -, -, -, -, -, hram⟩ := hb
  refine ⟨?registers, fun a => by rw [step_pmem h], ?noStore, ?store, step_halt_iff hs h, step_error_iff hs h, ?skip,
    step_cycle hs h⟩
  all_goals obtain ⟨u, hexec, rfl⟩ := step_next_of_running hs h
  case registers =>
    intro q hq
    rw [State.finishStep_reg, (exec_instrEffect hexec).reg_eq hq]
  case noStore =>
    intro hno
    obtain ⟨hramEq, hout⟩ := (exec_instrEffect hexec).ram_out_eq hno
    exact ⟨fun a => by rw [State.finishStep_ram, hramEq], by rw [State.finishStep_out, hout]⟩
  case store =>
    intro rd rs m hfetch
    rw [hfetch] at hexec
    rw [State.finishStep_ram, State.finishStep_out]
    exact exec_store_frame hram hexec
  case skip => exact u.finishStep_skip

/-! ### The signals stay set (R121, R229) -/

theorem Effect.halt_mono {s t : State} (h : Effect s t) (hhalt : s.halt = true) : t.halt = true := by
  obtain ⟨h1, -⟩ | ⟨h1, -⟩ | ⟨h1, -⟩ := h.signals_cases <;> simp [h1, hhalt]

theorem Effect.error_mono {s t : State} (h : Effect s t) (herror : s.error = true) : t.error = true := by
  obtain ⟨-, h2⟩ | ⟨-, h2⟩ | ⟨-, h2⟩ := h.signals_cases <;> simp [h2, herror]

/-- The run loop leaves an ended machine as it is, whatever the budget. -/
theorem run_snd_of_not_running (n : Nat) {s : State} (h : ¬ s.Running) : (run n s).2 = s := by
  obtain hhalt | ⟨hhalt, herror⟩ | hs := s.engine_cases
  · rw [run_of_halt n hhalt]
  · rw [run_of_error n hhalt herror]
  · exact absurd hs h

/-- Settles O52. -/
theorem signalsAreNeverCleared : Obligations.SignalsAreNeverCleared := by
  intro s t h
  refine ⟨fun hhalt => ?halt, fun herror => ?error, fun hended n => run_snd_of_not_running n hended⟩
  all_goals obtain ⟨-, rfl⟩ | ⟨-, u, hexec, rfl⟩ := step_next h
  case halt.inl => exact hhalt
  case halt.inr => rw [State.finishStep_halt, (exec_next hexec).halt_mono hhalt]
  case error.inl => exact herror
  case error.inr => rw [State.finishStep_error, (exec_next hexec).error_mono herror]

end Sys2Proof.Machine
end

section
/-!
SUPPORT. The decoder and the encoder on every word (spec/30_encoding.md R82, R90, R97, R110): the format by the word's low
bits, the fields and immediates as numbers, the encoders as shift expressions, and the obligations O2, O3, O4, O6 and O7.
-/

namespace Sys2Proof.Laws

/-! ### The format of a word, by its low bits (R82) -/

theorem lowBits_eq_iff (w : Word) {k : Nat} (c : BitVec k) : w.extractLsb' 0 k = c ↔ w.toNat % 2 ^ k = c.toNat := by
  rw [← BitVec.toNat_inj, BitVec.extractLsb'_toNat, Nat.shiftRight_zero]

theorem formatOfWord_eq (w : Word) :
    formatOfWord w =
      if w.toNat % 4 = 0 then .rr else if w.toNat % 4 = 1 then .ls else if w.toNat % 4 = 2 then .ri6
      else if w.toNat % 8 = 3 then .ri8 else if w.toNat % 16 = 7 then .i11 else .i12 := by
  simp only [formatOfWord, lowBits_eq_iff]
  rfl

theorem formatOfWord_of_rr {w : Word} (h : w.toNat % 4 = 0) : formatOfWord w = .rr := by
  rw [formatOfWord_eq, if_pos h]

theorem formatOfWord_of_ls {w : Word} (h : w.toNat % 4 = 1) : formatOfWord w = .ls := by
  rw [formatOfWord_eq, if_neg (by omega), if_pos h]

theorem formatOfWord_of_ri6 {w : Word} (h : w.toNat % 4 = 2) : formatOfWord w = .ri6 := by
  rw [formatOfWord_eq, if_neg (by omega), if_neg (by omega), if_pos h]

theorem formatOfWord_of_ri8 {w : Word} (h : w.toNat % 8 = 3) : formatOfWord w = .ri8 := by
  rw [formatOfWord_eq, if_neg (by omega), if_neg (by omega), if_neg (by omega), if_pos h]

theorem formatOfWord_of_i11 {w : Word} (h : w.toNat % 16 = 7) : formatOfWord w = .i11 := by
  rw [formatOfWord_eq, if_neg (by omega), if_neg (by omega), if_neg (by omega), if_neg (by omega), if_pos h]

theorem formatOfWord_of_i12 {w : Word} (h : w.toNat % 16 = 15) : formatOfWord w = .i12 := by
  rw [formatOfWord_eq, if_neg (by omega), if_neg (by omega), if_neg (by omega), if_neg (by omega), if_neg (by omega)]

/-! ### The record, by the word's low bits (R90) -/

theorem record_of_rr {w : Word} (h : w.toNat % 4 = 0) :
    (decode w).record = ⟨.rr, fieldOp5 w, fieldRd w, fieldRs w, 0⟩ := by
  rw [record_decode, decodeRecord, formatOfWord_of_rr h]

theorem record_of_ls {w : Word} (h : w.toNat % 4 = 1) :
    (decode w).record =
      ⟨.ls, baseLs ||| (fieldOp2 w).setWidth 5, fieldRd w, fieldRs w, zextField (fieldImm4 w)⟩ := by
  rw [record_decode, decodeRecord, formatOfWord_of_ls h]

theorem record_of_ri6 {w : Word} (h : w.toNat % 4 = 2) :
    (decode w).record = ⟨.ri6, baseRi6 ||| (fieldOp4 w).setWidth 5, fieldRd w, 0, sextField 6 (fieldImm6 w)⟩ := by
  rw [record_decode, decodeRecord, formatOfWord_of_ri6 h]

theorem record_of_ri8 {w : Word} (h : w.toNat % 8 = 3) :
    (decode w).record = ⟨.ri8, baseRi8 ||| (fieldOp1Ri8 w).setWidth 5, fieldRd w, 0, sextField 8 (fieldImm8 w)⟩ := by
  rw [record_decode, decodeRecord, formatOfWord_of_ri8 h]

theorem record_of_i11 {w : Word} (h : w.toNat % 16 = 7) :
    (decode w).record = ⟨.i11, baseI11 ||| ((fieldOp1I11 w).setWidth 5 <<< 1), 0, 0, sextField 11 (fieldImm11 w)⟩ := by
  rw [record_decode, decodeRecord, formatOfWord_of_i11 h]

theorem record_of_i12 {w : Word} (h : w.toNat % 16 = 15) :
    (decode w).record = ⟨.i12, Opc.imm, 0, 0, sextField 12 (fieldImm12 w)⟩ := by
  rw [record_decode, decodeRecord, formatOfWord_of_i12 h]

/-! ### The fields and the opcodes as numbers (R83 to R88, R91) -/

theorem toNat_extractLsb' (w : Word) (start len : Nat) :
    (w.extractLsb' start len).toNat = w.toNat / 2 ^ start % 2 ^ len := by
  rw [BitVec.extractLsb'_toNat, Nat.shiftRight_eq_div_pow]

/-- The topmost field needs no remainder. -/
theorem toNat_extractLsb'_top (w : Word) (start len : Nat) (h : start + len = 16) :
    (w.extractLsb' start len).toNat = w.toNat / 2 ^ start := by
  rw [toNat_extractLsb', Nat.mod_eq_of_lt]
  exact Nat.div_lt_of_lt_mul (by rw [← Nat.pow_add, h]; exact w.isLt)

theorem toNat_fieldRd (w : Word) : (fieldRd w).toNat = w.toNat / 4096 := toNat_extractLsb'_top w 12 4 rfl
theorem toNat_fieldRs (w : Word) : (fieldRs w).toNat = w.toNat / 256 % 16 := toNat_extractLsb' w 8 4
theorem toNat_fieldOp5 (w : Word) : (fieldOp5 w).toNat = w.toNat / 4 % 32 := toNat_extractLsb' w 2 5
theorem toNat_fieldOp2 (w : Word) : (fieldOp2 w).toNat = w.toNat / 4 % 4 := toNat_extractLsb' w 2 2
theorem toNat_fieldOp4 (w : Word) : (fieldOp4 w).toNat = w.toNat / 4 % 16 := toNat_extractLsb' w 2 4
theorem toNat_fieldOp1Ri8 (w : Word) : (fieldOp1Ri8 w).toNat = w.toNat / 8 % 2 := toNat_extractLsb' w 3 1
theorem toNat_fieldOp1I11 (w : Word) : (fieldOp1I11 w).toNat = w.toNat / 16 % 2 := toNat_extractLsb' w 4 1
theorem toNat_fieldImm4 (w : Word) : (fieldImm4 w).toNat = w.toNat / 16 % 16 := toNat_extractLsb' w 4 4
theorem toNat_fieldImm6 (w : Word) : (fieldImm6 w).toNat = w.toNat / 64 % 64 := toNat_extractLsb' w 6 6
theorem toNat_fieldImm8 (w : Word) : (fieldImm8 w).toNat = w.toNat / 16 % 256 := toNat_extractLsb' w 4 8
theorem toNat_fieldImm11 (w : Word) : (fieldImm11 w).toNat = w.toNat / 32 := toNat_extractLsb'_top w 5 11 rfl
theorem toNat_fieldImm12 (w : Word) : (fieldImm12 w).toNat = w.toNat / 16 := toNat_extractLsb'_top w 4 12 rfl

theorem toNat_lsOpcode : ∀ f : BitVec 2, (baseLs ||| f.setWidth 5).toNat = 12 + f.toNat := by decide

theorem toNat_ri6Opcode : ∀ f : BitVec 4, (baseRi6 ||| f.setWidth 5).toNat = 16 + f.toNat := by decide

theorem toNat_ri8Opcode : ∀ f : BitVec 1, (baseRi8 ||| f.setWidth 5).toNat = 6 + f.toNat := by decide

theorem toNat_i11Opcode : ∀ f : BitVec 1, (baseI11 ||| (f.setWidth 5 <<< 1)).toNat = 8 + 2 * f.toNat := by decide

theorem toInt_zextField (v : BitVec 4) : (zextField v).toInt = v.toNat := by
  have hv := v.isLt
  rw [zextField, BitVec.toInt_setWidth, Int.bmod_eq_of_le (by omega) (by omega)]

/-- The canonical immediate is the field's number, folded around zero (R94, R95). -/
theorem toInt_sextField_eq_bmod {n : Nat} (h1 : 1 ≤ n) (h13 : n ≤ 13) (v : BitVec n) :
    (sextField n v).toInt = (v.toNat : Int).bmod (2 ^ n) := by
  rw [sextField_toInt h1 h13, BitVec.toInt_eq_toNat_bmod]

/-- Settles O4, format by format. -/
theorem decodeYieldsTheCanonicalRecord : Obligations.DecodeYieldsTheCanonicalRecord := by
  intro w
  dsimp only
  refine ⟨fun h => ?rr, fun h => ?ls, fun h => ?ri6, fun h => ?ri8, fun h => ?i11, fun h => ?i12⟩
  case rr =>
    rw [record_of_rr h]
    exact ⟨rfl, toNat_fieldOp5 w, toNat_fieldRd w, toNat_fieldRs w, rfl⟩
  case ls =>
    rw [record_of_ls h]
    refine ⟨rfl, ?_, toNat_fieldRd w, toNat_fieldRs w, ?_⟩
    · rw [toNat_lsOpcode, toNat_fieldOp2]
    · rw [toInt_zextField, toNat_fieldImm4]
  case ri6 =>
    rw [record_of_ri6 h]
    refine ⟨rfl, ?_, toNat_fieldRd w, rfl, ?_⟩
    · rw [toNat_ri6Opcode, toNat_fieldOp4]
    · rw [← toNat_fieldImm6]
      exact toInt_sextField_eq_bmod (by decide) (by decide) _
  case ri8 =>
    rw [record_of_ri8 h]
    refine ⟨rfl, ?_, toNat_fieldRd w, rfl, ?_⟩
    · rw [toNat_ri8Opcode, toNat_fieldOp1Ri8]
    · rw [← toNat_fieldImm8]
      exact toInt_sextField_eq_bmod (by decide) (by decide) _
  case i11 =>
    rw [record_of_i11 h]
    refine ⟨rfl, ?_, rfl, rfl, ?_⟩
    · rw [toNat_i11Opcode, toNat_fieldOp1I11]
    · rw [← toNat_fieldImm11]
      exact toInt_sextField_eq_bmod (by decide) (by decide) _
  case i12 =>
    rw [record_of_i12 h]
    refine ⟨rfl, rfl, rfl, rfl, ?_⟩
    rw [← toNat_fieldImm12]
    exact toInt_sextField_eq_bmod (by decide) (by decide) _

/-! ### The decoded immediate lies in its format's range (R97) -/

/-- The range of the immediate, read off the record. -/
def immFits (d : Decoded) : Bool :=
  match d.format with
  | .rr => true
  | .ls => fitsOffset4 d.imm13
  | .ri6 => fitsSigned 6 d.imm13
  | .ri8 => fitsSigned 8 d.imm13
  | .i11 => fitsSigned 11 d.imm13
  | .i12 => fitsSigned 12 d.imm13

theorem wellFormed_eq_immFits (i : Instr) : i.wellFormed = immFits i.record := by
  cases i <;> rfl

theorem fitsOffset4_zextField (v : BitVec 4) : fitsOffset4 (zextField v) = true := by
  have hv := v.isLt
  rw [fitsOffset4, zextField, BitVec.toNat_setWidth_of_le (by decide)]
  exact decide_eq_true hv

theorem fitsSigned_sextField {n : Nat} (h1 : 1 ≤ n) (h13 : n ≤ 13) (v : BitVec n) :
    fitsSigned n (sextField n v) = true := by
  rw [fitsSigned, sextField_toInt h1 h13]
  simpa using ⟨BitVec.le_toInt v, BitVec.toInt_lt⟩

/-- Settles O3. -/
theorem decodedInstructionIsWellFormed : Obligations.DecodedInstructionIsWellFormed := by
  intro w
  rw [wellFormed_eq_immFits, record_decode, decodeRecord]
  cases formatOfWord w with
  | rr => rfl
  | ls => exact fitsOffset4_zextField _
  | ri6 | ri8 | i11 | i12 => exact fitsSigned_sextField (by decide) (by decide) _

/-! ### Re-encoding a decoded word (R110) -/

/-- A field survives its sign extension. -/
theorem extractLsb'_sextField {n : Nat} (h1 : 1 ≤ n) (h13 : n ≤ 13) (v : BitVec n) :
    (sextField n v).extractLsb' 0 n = v := by
  apply BitVec.toInt_inj.1
  rw [← BitVec.setWidth_eq_extractLsb' h13, ← BitVec.signExtend_eq_setWidth_of_le _ h13, BitVec.toInt_signExtend,
    Nat.min_eq_left h13, sextField_toInt h1 h13, BitVec.toInt_bmod_cancel]

theorem extractLsb'_zextField (v : BitVec 4) : (zextField v).extractLsb' 0 4 = v := by
  rw [zextField, ← BitVec.setWidth_eq_extractLsb' (by decide), BitVec.setWidth_setWidth_of_le _ (by decide),
    BitVec.setWidth_eq]

theorem extractLsb'_lsOpcode : ∀ f : BitVec 2, (baseLs ||| f.setWidth 5).extractLsb' 0 2 = f := by decide

theorem extractLsb'_ri6Opcode : ∀ f : BitVec 4, (baseRi6 ||| f.setWidth 5).extractLsb' 0 4 = f := by decide

theorem extractLsb'_ri8Opcode : ∀ f : BitVec 1, (baseRi8 ||| f.setWidth 5).extractLsb' 0 1 = f := by decide

theorem extractLsb'_i11Opcode : ∀ f : BitVec 1, (baseI11 ||| (f.setWidth 5 <<< 1)).extractLsb' 1 1 = f := by decide

/-! The parts of each word are consecutive slices of it, so they join to the whole. -/

section Slices
open BitVec (extractLsb'_append_extractLsb'_eq_extractLsb')

/-- Bit 7 stands in no field of an RR word (D6). -/
theorem encode_decode_of_rr {w : Word} (h : w.toNat % 4 = 0) : encode (decode w) = w &&& 0xFF7F#16 := by
  have hdisc : discRr = w.extractLsb' 0 2 := ((lowBits_eq_iff w _).2 h).symm
  rw [encode, record_of_rr h, encodeRecord, encodeRr, hdisc]
  apply BitVec.eq_of_getLsbD_eq
  intro i hi
  simp only [fieldRd, fieldRs, fieldOp5, BitVec.getLsbD_append, BitVec.getLsbD_extractLsb', BitVec.getLsbD_and]
  interval_cases i <;> simp

theorem encode_decode_of_ls {w : Word} (h : w.toNat % 4 = 1) : encode (decode w) = w := by
  have hdisc : discLs = w.extractLsb' 0 2 := ((lowBits_eq_iff w _).2 h).symm
  rw [encode, record_of_ls h, encodeRecord, encodeLs, extractLsb'_zextField, extractLsb'_lsOpcode, hdisc]
  simp (disch := rfl) only [fieldRd, fieldRs, fieldImm4, fieldOp2, extractLsb'_append_extractLsb'_eq_extractLsb']
  exact BitVec.extractLsb'_eq_self

theorem encode_decode_of_ri6 {w : Word} (h : w.toNat % 4 = 2) : encode (decode w) = w := by
  have hdisc : discRi6 = w.extractLsb' 0 2 := ((lowBits_eq_iff w _).2 h).symm
  rw [encode, record_of_ri6 h, encodeRecord, encodeRi6, extractLsb'_sextField (by decide) (by decide),
    extractLsb'_ri6Opcode, hdisc]
  simp (disch := rfl) only [fieldRd, fieldImm6, fieldOp4, extractLsb'_append_extractLsb'_eq_extractLsb']
  exact BitVec.extractLsb'_eq_self

theorem encode_decode_of_ri8 {w : Word} (h : w.toNat % 8 = 3) : encode (decode w) = w := by
  have hdisc : discRi8 = w.extractLsb' 0 3 := ((lowBits_eq_iff w _).2 h).symm
  rw [encode, record_of_ri8 h, encodeRecord, encodeRi8, extractLsb'_sextField (by decide) (by decide),
    extractLsb'_ri8Opcode, hdisc]
  simp (disch := rfl) only [fieldRd, fieldImm8, fieldOp1Ri8, extractLsb'_append_extractLsb'_eq_extractLsb']
  exact BitVec.extractLsb'_eq_self

theorem encode_decode_of_i11 {w : Word} (h : w.toNat % 16 = 7) : encode (decode w) = w := by
  have hdisc : discI11 = w.extractLsb' 0 4 := ((lowBits_eq_iff w _).2 h).symm
  rw [encode, record_of_i11 h, encodeRecord, encodeI11, extractLsb'_sextField (by decide) (by decide),
    extractLsb'_i11Opcode, hdisc]
  simp (disch := rfl) only [fieldImm11, fieldOp1I11, extractLsb'_append_extractLsb'_eq_extractLsb']
  exact BitVec.extractLsb'_eq_self

theorem encode_decode_of_i12 {w : Word} (h : w.toNat % 16 = 15) : encode (decode w) = w := by
  have hdisc : discI12 = w.extractLsb' 0 4 := ((lowBits_eq_iff w _).2 h).symm
  rw [encode, record_of_i12 h, encodeRecord, encodeI12, extractLsb'_sextField (by decide) (by decide), hdisc]
  simp (disch := rfl) only [fieldImm12, extractLsb'_append_extractLsb'_eq_extractLsb']
  exact BitVec.extractLsb'_eq_self

end Slices

/-- Settles O2: the low bits of a word select one of the six formats. -/
theorem encodeRecoversDecodedWord : Obligations.EncodeRecoversDecodedWord := by
  intro w
  have hrr : w.extractLsb' 0 2 = 0b00#2 ↔ w.toNat % 4 = 0 := lowBits_eq_iff w _
  split
  case isTrue h => exact encode_decode_of_rr (hrr.1 h)
  case isFalse h =>
    have hne := mt hrr.2 h
    obtain h | h | h | h | h : w.toNat % 4 = 1 ∨ w.toNat % 4 = 2 ∨ w.toNat % 8 = 3 ∨ w.toNat % 16 = 7 ∨
        w.toNat % 16 = 15 := by omega
    · exact encode_decode_of_ls h
    · exact encode_decode_of_ri6 h
    · exact encode_decode_of_ri8 h
    · exact encode_decode_of_i11 h
    · exact encode_decode_of_i12 h

/-! ### The encoders as shift expressions (R110) -/

section Shifts
open Sys2Proof.Machine (rrWord lsWord ri6Word)

/-- An immediate masked to a field of `n` bits is the immediate truncated to the field. -/
theorem signExtend_and_mask (m : Imm13) {n : Nat} (hn : n ≤ 13) :
    m.signExtend 16 &&& BitVec.ofNat 16 (2 ^ n - 1) = (m.setWidth n).setWidth 16 := by
  apply BitVec.eq_of_getLsbD_eq
  intro i hi
  rw [BitVec.getLsbD_and, BitVec.getLsbD_signExtend, BitVec.getLsbD_setWidth, BitVec.getLsbD_setWidth,
    BitVec.getLsbD_ofNat, Nat.testBit_two_pow_sub_one]
  by_cases hin : i < n
  · simp [hi, hin, show i < 13 by omega]
  · simp [hin]

theorem setWidth_and_mask (op : BitVec 5) (n : Nat) :
    op.setWidth 16 &&& BitVec.ofNat 16 (2 ^ n - 1) = (op.setWidth n).setWidth 16 := by
  apply BitVec.eq_of_getLsbD_eq
  intro i hi
  rw [BitVec.getLsbD_and, BitVec.getLsbD_setWidth, BitVec.getLsbD_setWidth, BitVec.getLsbD_setWidth,
    BitVec.getLsbD_ofNat, Nat.testBit_two_pow_sub_one]
  by_cases hin : i < n <;> simp [hi, hin]

theorem encodeI11_eq_fields (op : BitVec 5) (m : Imm13) :
    encodeI11 op m = (m.setWidth 11).setWidth 16 <<< 5 ||| ((op.setWidth 16 >>> 1) &&& 1#16) <<< 4 ||| 0b0111#16 := by
  apply BitVec.eq_of_getLsbD_eq
  intro i hi
  simp only [encodeI11, discI11, BitVec.getLsbD_append, BitVec.getLsbD_or, BitVec.getLsbD_and, BitVec.getLsbD_shiftLeft,
    BitVec.getLsbD_ushiftRight, BitVec.getLsbD_setWidth, BitVec.getLsbD_extractLsb']
  interval_cases i <;> simp

theorem encodeI12_eq_fields (m : Imm13) : encodeI12 m = (m.setWidth 12).setWidth 16 <<< 4 ||| 0b1111#16 := by
  apply BitVec.eq_of_getLsbD_eq
  intro i hi
  simp only [encodeI12, discI12, BitVec.getLsbD_append, BitVec.getLsbD_or, BitVec.getLsbD_shiftLeft,
    BitVec.getLsbD_setWidth, BitVec.getLsbD_extractLsb']
  interval_cases i <;> simp

/-- Settles O6, format by format: a masked operand is the truncated one of the instruction rules. -/
theorem encodersAreTheSpecExpressions : Obligations.EncodersAreTheSpecExpressions := by
  intro i
  dsimp only
  rw [encode, Instr.format]
  obtain ⟨format, op, rd, rs, m⟩ := i.record
  cases format <;> dsimp only [encodeRecord]
  case rr => rw [encodeRr_eq_rrWord, rrWord, BitVec.or_zero]
  case ls =>
    rw [encodeLs_eq_lsWord, lsWord, ← signExtend_and_mask m (n := 4) (by decide), ← setWidth_and_mask op 2,
      ← BitVec.or_assoc]
    rfl
  case ri6 =>
    rw [encodeRi6_eq_ri6Word, ri6Word, ← signExtend_and_mask m (n := 6) (by decide), ← setWidth_and_mask op 4,
      ← BitVec.or_assoc]
    rfl
  case ri8 =>
    rw [encodeRi8_eq_fields, ← signExtend_and_mask m (n := 8) (by decide), ← setWidth_and_mask op 1,
      ← BitVec.or_assoc]
    rfl
  case i11 =>
    rw [encodeI11_eq_fields, ← signExtend_and_mask m (n := 11) (by decide)]
    rfl
  case i12 =>
    rw [encodeI12_eq_fields, ← signExtend_and_mask m (n := 12) (by decide)]
    rfl

end Shifts

/-- Settles O7, by running the decoder on each word. -/
theorem sampleWordsDecode : Obligations.SampleWordsDecode := by
  unfold Obligations.SampleWordsDecode
  decide

end Sys2Proof.Laws
end

section
/-!
SUPPORT. The step, the latch and the immediate operand (spec/40_step_and_operand.md sections 2 to 4, spec/42_imm_and_move.md
IMM and MOVE), and the obligations O8, O9, O10, O11, O21 and O23.
-/

namespace Sys2Proof.Machine

theorem SameRegs.refl (s : State) : SameRegs s s := fun _ => rfl

theorem SameStores.refl (s : State) : SameStores s s := ⟨fun _ => rfl, fun _ => rfl, rfl⟩

theorem SameStores.trans {s t u : State} (h : SameStores s t) (h' : SameStores t u) : SameStores s u := by
  obtain ⟨hram, hpmem, hout⟩ := h
  obtain ⟨hram', hpmem', hout'⟩ := h'
  exact ⟨fun a => (hram' a).trans (hram a), fun a => (hpmem' a).trans (hpmem a), hout'.trans hout⟩

/-! ### The step of a running machine (R129), and of an ended one -/

/-- Settles O9. -/
theorem endedMachineStaysPut : Obligations.EndedMachineStaysPut :=
  fun _ h => step_ended (Bool.of_not_eq_false (mt State.running_of_not_ended h))

/-- The look-ahead, as a test of the decoded word (R127, D13). -/
theorem finishStep_pc_eq (s : State) :
    s.finishStep.pc =
      if s.skip then (if (decode (s.pmem.read (s.pc + 1))).opcode = 9#5 then s.pc + 3 else s.pc + 2) else s.pc + 1 := by
  simp only [State.finishStep_pc, State.isPrefixAt_iff, State.instrAt]

/-- Settles O8: the step is the instruction, then items 4 to 6. -/
theorem stepRunsTheDecodedInstruction : Obligations.StepRunsTheDecodedInstruction := by
  rintro s i hs rfl -
  refine ⟨fun t hexec => ?next, fun f hexec => step_of_fault (State.ended_of_running hs) hexec⟩
  case next =>
    exact ⟨t.finishStep, step_of_exec (State.ended_of_running hs) hexec, (SameRegs.refl t).finishStep,
      (SameStores.refl t).finishStep, t.finishStep_halt, t.finishStep_error, t.finishStep_latch, finishStep_pc_eq t,
      t.finishStep_skip, t.finishStep_cycle⟩

/-! ### The immediate operand (R123, D10) -/

theorem toNat_operandImm_of_valid {s : State} (imm13 : Imm13) (h : s.latch.valid = true) :
    (operandImm s imm13).toNat = s.latch.value.toNat / 16 * 16 + imm13.toNat % 16 := by
  have hvalue := s.latch.value.isLt
  rw [operandImm_of_valid imm13 h, BitVec.toNat_append, ← Nat.shiftLeft_add_eq_or_of_lt (BitVec.isLt _),
    Nat.shiftLeft_eq, BitVec.extractLsb'_toNat, BitVec.extractLsb'_toNat, Nat.shiftRight_eq_div_pow, Nat.shiftRight_zero]
  omega

/-- Above a zero nibble the low nibble of the immediate is added bit by bit. -/
theorem operandImm_of_valid_eq_or {s : State} (imm13 : Imm13) (h : s.latch.valid = true)
    (hnibble : s.latch.value.extractLsb' 0 4 = 0#4) :
    operandImm s imm13 = s.latch.value ||| BitVec.ofNat 16 (imm13.toNat % 16) := by
  have hvalue := s.latch.value.isLt
  have hlow : s.latch.value.toNat % 16 = 0 := (Laws.lowBits_eq_iff s.latch.value 0#4).1 hnibble
  have hmultiple : s.latch.value.toNat = 2 ^ 4 * (s.latch.value.toNat / 16) := by omega
  have hword : imm13.toNat % 16 < 2 ^ 16 := by omega
  apply BitVec.eq_of_toNat_eq
  calc (operandImm s imm13).toNat
      = 2 ^ 4 * (s.latch.value.toNat / 16) + imm13.toNat % 16 := by
        rw [toNat_operandImm_of_valid imm13 h, Nat.mul_comm]
    _ = 2 ^ 4 * (s.latch.value.toNat / 16) ||| imm13.toNat % 16 := Nat.two_pow_add_eq_or_of_lt (by omega) _
    _ = (s.latch.value ||| BitVec.ofNat 16 (imm13.toNat % 16)).toNat := by
        rw [← hmultiple, BitVec.toNat_or, BitVec.toNat_ofNat, Nat.mod_eq_of_lt hword]

/-- Settles O10. -/
theorem operandCombinesImmediateAndLatch : Obligations.OperandCombinesImmediateAndLatch :=
  fun _ imm13 => ⟨toInt_operandImm_of_invalid imm13, toNat_operandImm_of_valid imm13, operandImm_of_valid_eq_or imm13⟩

/-! ### IMM (R160), and the two steps that a latch lives through (R32) -/

/-- Settles O21. -/
theorem immLoadsTheLatch : Obligations.ImmLoadsTheLatch :=
  fun imm13 s => ⟨_, exec_imm imm13 s, s.setLatch_latch _, s.setLatch_reg _, s.setLatch_pc _, s.setLatch_skip _,
    s.setLatch_halt _, s.setLatch_error _, s.setLatch_cycle _, fun _ => rfl, fun _ => rfl, s.setLatch_out _⟩

/-- The operand that follows an IMM: the upper bits of the following immediate do not count. -/
theorem operandImm_of_latch_append {s : State} {v : BitVec 12} {b : Bool} (m : Imm13)
    (h : s.latch = ⟨v ++ 0#4, true, b⟩) : operandImm s m = v ++ m.extractLsb' 0 4 := by
  rw [operandImm_of_valid m (by rw [h]), h, BitVec.extractLsb'_append_eq_of_le (by decide), BitVec.extractLsb'_eq_self]

theorem operandImm_of_latch_clear {s : State} (m : Imm13) (h : s.latch = Latch.clear) :
    operandImm s m = m.signExtend 16 :=
  operandImm_of_invalid m (by rw [h]; rfl)

/-- An instruction that leaves `skip` alone is followed by the one in the next slot. -/
theorem finishStep_pc_of_not_skip {s : State} (h : s.skip = false) : s.finishStep.pc = s.pc + 1 := by
  simp [State.finishStep_pc, h]

/-- The state after the step of an IMM. -/
def afterImm (k : Imm13) (s : State) : State := (s.setLatch ⟨k.extractLsb' 0 12 ++ 0#4, true, true⟩).finishStep

theorem afterImm_latch (k : Imm13) (s : State) : (afterImm k s).latch = ⟨k.extractLsb' 0 12 ++ 0#4, true, false⟩ :=
  State.finishStep_latch_loaded rfl

theorem afterImm_pc (k : Imm13) {s : State} (hb : s.Boundary) : (afterImm k s).pc = s.pc + 1 :=
  finishStep_pc_of_not_skip hb.1

theorem afterImm_running (k : Imm13) {s : State} (hs : s.Running) : (afterImm k s).Running := by
  obtain ⟨hhalt, herror⟩ := hs
  exact ⟨(State.finishStep_halt _).trans hhalt, (State.finishStep_error _).trans herror⟩

theorem sameRegs_afterImm (k : Imm13) (s : State) : SameRegs s (afterImm k s) :=
  SameRegs.finishStep (s.setLatch_reg _)

theorem sameStores_afterImm (k : Imm13) (s : State) : SameStores s (afterImm k s) :=
  SameStores.finishStep ⟨fun _ => rfl, fun _ => rfl, s.setLatch_out _⟩

/-- Settles O11: the IMM's step loads the latch, and the step after it clears it unless it is an IMM too. -/
theorem latchSurvivesExactlyOneInstruction : Obligations.LatchSurvivesExactlyOneInstruction := by
  intro s k hb hs hfetch
  have hstep : step s = .next (afterImm k s) := step_of_fetch_imm hs hfetch
  refine ⟨afterImm k s, hstep, afterImm_pc k hb, fun m => operandImm_of_latch_append m (afterImm_latch k s),
    fun u himm hnext m => ?third⟩
  case third =>
    exact operandImm_of_latch_clear m
      (step_latch_clear (stepKeepsTheBoundaryInvariant s _ hb hstep) (afterImm_running k hs) himm hnext)

/-! ### IMM and MOVE (R165) -/

theorem step_of_fetch_moveRi {rd : RegNum} {m : Imm13} {s : State} (hs : s.Running) (h : s.fetch = .moveRi rd m) :
    step s = .next (s.setReg rd (operandImm s m)).finishStep :=
  step_of_exec (State.ended_of_running hs) (by rw [h, exec_moveRi])

/-- A word is its upper 12 bits above its low nibble. -/
theorem extractLsb'_append_nibble (v : Word) : v.extractLsb' 4 12 ++ v.extractLsb' 0 4 = v :=
  (BitVec.extractLsb'_append_extractLsb'_eq_extractLsb' rfl).trans BitVec.extractLsb'_eq_self

/-- Settles O23: the MOVE's operand joins the two parts of the constant. -/
theorem prefixedMoveLoadsAnyConstant : Obligations.PrefixedMoveLoadsAnyConstant := by
  intro s rd k m value hb hs hfetch hnext hupper hlower
  have hpc := afterImm_pc k hb
  have hpmem : (afterImm k s).pmem = s.pmem := State.finishStep_pmem _
  have hmove : (afterImm k s).fetch = .moveRi rd m := by rw [← hnext, State.fetch, hpc, State.instrAt, hpmem]; rfl
  have hvalue : operandImm (afterImm k s) m = value := by
    rw [operandImm_of_latch_append m (afterImm_latch k s), hupper, hlower, extractLsb'_append_nibble]
  have hskip : (afterImm k s).skip = false := State.finishStep_skip _
  have hcycle : (afterImm k s).cycle = s.cycle + 1 := State.finishStep_cycle _
  refine ⟨afterImm k s, _, step_of_fetch_imm hs hfetch, step_of_fetch_moveRi (afterImm_running k hs) hmove,
    ?value, fun q hq => ?others, ?pc, ?latch, ?cycle, ?stores⟩
  case value => rw [State.finishStep_reg, State.setReg_reg_self, hvalue]
  case others => rw [State.finishStep_reg, State.setReg_reg_of_ne _ _ hq, sameRegs_afterImm k s q]
  case pc =>
    rw [finishStep_pc_of_not_skip (by rw [State.setReg_skip, hskip]), State.setReg_pc, hpc, BitVec.add_assoc]
    rfl
  case latch =>
    rw [State.finishStep_latch_clear (by rw [State.setReg_latch, afterImm_latch])]
    rfl
  case cycle => rw [State.finishStep_cycle, State.setReg_cycle, hcycle]
  case stores => exact ((sameStores_afterImm k s).trans (sameStores_setReg _ rd _)).finishStep

end Sys2Proof.Machine
end

section
/-!
SUPPORT. Control transfer and the compare's step (spec/41_control.md R140 to R147, spec/40_step_and_operand.md section 4,
spec/45_compare_skip.md section 1), and the obligations O13 to O18.
-/

namespace Sys2Proof.Machine

/-! ### The compare's step (R200, R127) -/

theorem CompareHolds.compare_opcode {op : BitVec 5} {x y : Word} (h : CompareHolds op x y) : 26 ≤ op.toNat := by
  obtain ⟨rfl, -⟩ | ⟨rfl, -⟩ | ⟨rfl, -⟩ | ⟨rfl, -⟩ | ⟨rfl, -⟩ | ⟨rfl, -⟩ := h <;> decide

theorem exec_compare_true {i : Instr} {s : State} (h : CompareHolds i.opcode (leftOf i s) (operandOf i s)) :
    exec i s = .next s := by
  obtain ⟨b, hexec, hb⟩ := exec_compare s h.compare_opcode
  obtain rfl : b = true := hb.1 h
  exact hexec

/-- Items 4 to 6 end the latch of a boundary state, unless the instruction loads it again. -/
theorem finishStep_latch_valid {s t : State} (hb : s.Boundary) (h : t.latch = s.latch) :
    t.finishStep.latch.valid = false := by
  obtain ⟨-, hexpire, -⟩ := hb
  rw [State.finishStep_latch_clear (by rw [h, hexpire])]
  rfl

theorem State.Running.finishStep {s : State} (h : s.Running) : s.finishStep.Running := by
  obtain ⟨hhalt, herror⟩ := h
  exact ⟨s.finishStep_halt.trans hhalt, s.finishStep_error.trans herror⟩

theorem finishStep_pc_of_setSkip (s : State) :
    (s.setSkip true).finishStep.pc = if (s.instrAt (s.pc + 1)).opcode = 9#5 then s.pc + 3 else s.pc + 2 := by
  rw [finishStep_pc_eq, if_pos (s.setSkip_skip true)]
  rfl

/-- Settles O13: a false compare sets `skip`, and item 5 passes the next slot, or the next two. -/
theorem falseCompareSkipsOneUnit : Obligations.FalseCompareSkipsOneUnit := by
  intro s hb hs hop hfalse
  obtain ⟨hhalt, herror⟩ : (s.setSkip true).finishStep.Running := State.Running.finishStep hs
  exact ⟨_, step_of_exec (State.ended_of_running hs) (exec_compare_false hop hfalse), finishStep_pc_of_setSkip s,
    SameRegs.finishStep (s.setSkip_reg true), (sameStores_setSkip s true).finishStep,
    finishStep_latch_valid hb (s.setSkip_latch true), hhalt, herror, State.finishStep_cycle _⟩

/-- A step that only ends: what an instruction without effect leaves. -/
theorem finishStep_of_boundary {s : State} (hb : s.Boundary) (hs : s.Running) :
    s.finishStep.pc = s.pc + 1 ∧ SameRegs s s.finishStep ∧ SameStores s s.finishStep ∧
      s.finishStep.latch.valid = false ∧ s.finishStep.Running ∧ s.finishStep.cycle = s.cycle + 1 :=
  ⟨finishStep_pc_of_not_skip hb.1, (SameRegs.refl s).finishStep, (SameStores.refl s).finishStep,
    finishStep_latch_valid hb rfl, hs.finishStep, s.finishStep_cycle⟩

/-- Settles O14. -/
theorem trueCompareGoesOn : Obligations.TrueCompareGoesOn := by
  intro s hb hs htrue
  obtain ⟨hpc, hregs, hstores, hlatch, ⟨hhalt, herror⟩, hcycle⟩ := finishStep_of_boundary hb hs
  exact ⟨_, step_of_exec (State.ended_of_running hs) (exec_compare_true htrue), hpc, hregs, hstores, hlatch, hhalt,
    herror, hcycle⟩

/-! ### NOP (R140) -/

theorem exec_nop (rd rs : RegNum) (s : State) : exec (.nop rd rs) s = .next s := rfl

/-- Settles O15. -/
theorem nopChangesNothing : Obligations.NopChangesNothing := by
  refine ⟨exec_nop, fun rd rs s hb hs h => ?step⟩
  case step =>
    obtain ⟨hpc, hregs, hstores, hlatch, hrunning, hcycle⟩ := finishStep_of_boundary hb hs
    exact ⟨_, step_of_exec (State.ended_of_running hs) (by rw [h, exec_nop]), hpc, hcycle, hlatch, hregs, hstores,
      hrunning⟩

/-! ### JUMP (R143) -/

/-- Adding a signed offset to the address is addition of words (D14). -/
theorem ofInt_toNat_add_toInt (x y : Word) : BitVec.ofInt 16 (x.toNat + y.toInt) = x + y := by
  rw [BitVec.ofInt_add, BitVec.ofInt_natCast, BitVec.ofInt_toInt, BitVec.ofNat_toNat, BitVec.setWidth_eq]

theorem sameStores_setPc (s : State) (target : Word) : SameStores s (s.setPc target) :=
  ⟨fun _ => rfl, fun _ => rfl, s.setPc_out target⟩

theorem sameControl_setPc (s : State) (target : Word) : SameControl s (s.setPc target) :=
  ⟨s.setPc_latch target, s.setPc_halt target, s.setPc_error target, s.setPc_cycle target⟩

theorem onlyPc_setPc (s : State) (target : Word) : OnlyPc target s (s.setPc target) :=
  ⟨s.setPc_pc target, s.setPc_reg target, s.setPc_skip target, sameControl_setPc s target, sameStores_setPc s target⟩

theorem exec_jumpRr (rd rs : RegNum) (s : State) : exec (.jumpRr rd rs) s = .next (s.setPc (s.reg rs)) := rfl

theorem exec_jumpImm (imm13 : Imm13) (s : State) :
    exec (.jumpImm imm13) s = .next (s.setPc (s.pc + operandImm s imm13)) := rfl

/-- The ordinary advance follows a transfer (R26). -/
theorem step_of_jump {s : State} {target : Word} (hb : s.Boundary) (hs : s.Running)
    (h : exec s.fetch s = .next (s.setPc target)) : ∃ u, step s = .next u ∧ u.pc = target + 1 :=
  ⟨_, step_of_exec (State.ended_of_running hs) h, finishStep_pc_of_not_skip (s := s.setPc target) hb.1⟩

/-- Settles O16. -/
theorem jumpTransfersControl : Obligations.JumpTransfersControl := by
  refine ⟨fun rd rs s => ?register, fun imm13 s => ?immediate, fun rd rs s hb hs h => ?stepRegister,
    fun imm13 s hb hs h => ?stepImmediate⟩
  case register => exact ⟨_, exec_jumpRr rd rs s, onlyPc_setPc s _⟩
  case immediate =>
    rw [ofInt_toNat_add_toInt]
    exact ⟨_, exec_jumpImm imm13 s, onlyPc_setPc s _⟩
  case stepRegister => exact step_of_jump hb hs (by rw [h, exec_jumpRr])
  case stepImmediate =>
    rw [add_right_comm]
    exact step_of_jump hb hs (by rw [h, exec_jumpImm])

/-! ### CALL (R146) and the return (R147) -/

/-- The link is the address of the CALL itself (D15). -/
theorem linkAndGo_link (target : Word) (s : State) : (linkAndGo target s).reg 0 = s.pc := s.setReg_reg_self 0 s.pc

theorem linkAndGo_pc (target : Word) (s : State) : (linkAndGo target s).pc = target := rfl

theorem linkAndGo_frame (target : Word) (s : State) :
    (∀ q : RegNum, q ≠ 0 → (linkAndGo target s).reg q = s.reg q) ∧ (linkAndGo target s).skip = s.skip ∧
      SameControl s (linkAndGo target s) ∧ SameStores s (linkAndGo target s) :=
  ⟨fun _ hq => s.setReg_reg_of_ne s.pc hq, rfl, sameControl_setReg s 0 s.pc, sameStores_setReg s 0 s.pc⟩

theorem exec_callRr (rd rs : RegNum) (s : State) : exec (.callRr rd rs) s = .next (linkAndGo (s.reg rs) s) := rfl

theorem exec_callImm (imm13 : Imm13) (s : State) :
    exec (.callImm imm13) s = .next (linkAndGo (s.pc + operandImm s imm13) s) := rfl

/-- Settles O17. -/
theorem callSavesItsAddressAndTransfers : Obligations.CallSavesItsAddressAndTransfers := by
  refine ⟨fun rd rs s => ?register, fun imm13 s => ?immediate⟩
  case register =>
    exact ⟨_, exec_callRr rd rs s, linkAndGo_link _ s, linkAndGo_pc _ s, linkAndGo_frame _ s⟩
  case immediate =>
    rw [ofInt_toNat_add_toInt]
    exact ⟨_, exec_callImm imm13 s, linkAndGo_link _ s, linkAndGo_pc _ s, linkAndGo_frame _ s⟩

theorem step_link_of_call {s t : State} (hs : s.Running)
    (hcall : (∃ rd rs : RegNum, s.fetch = .callRr rd rs) ∨ ∃ imm13 : Imm13, s.fetch = .callImm imm13)
    (h : step s = .next t) : t.reg 0 = s.pc := by
  obtain ⟨target, hexec⟩ : ∃ target, exec s.fetch s = .next (linkAndGo target s) := by
    obtain ⟨rd, rs, hfetch⟩ | ⟨imm13, hfetch⟩ := hcall
    · exact ⟨_, by rw [hfetch, exec_callRr]⟩
    · exact ⟨_, by rw [hfetch, exec_callImm]⟩
  rw [step_of_exec (State.ended_of_running hs) hexec] at h
  cases h
  rw [State.finishStep_reg, linkAndGo_link]

/-- Settles O18: the link is the CALL's own address, and the advance after the jump passes it. -/
theorem returnResumesAfterTheCall : Obligations.ReturnResumesAfterTheCall := by
  intro s t _ hs hcall h v rd hbv hsv hjump hlink
  have hlink' : v.reg 0 = s.pc := hlink.trans (step_link_of_call hs hcall h)
  exact step_of_jump hbv hsv (by rw [hjump, exec_jumpRr, hlink'])

end Sys2Proof.Machine
end

section
/-!
SUPPORT. ASR (spec/44_alu.md R188, D33): the arithmetic shift as a floored quotient, and the obligation O39.
-/

namespace Sys2Proof.Machine

theorem aluForms_asr : AluForms .asrRr .asrRi Opc.asr aluAsr :=
  ⟨fun _ _ _ => rfl, fun _ _ _ => rfl, fun _ _ => rfl, fun _ _ => rfl⟩

theorem toInt_aluAsr (x y : Word) : (aluAsr x y).toInt = x.toInt.fdiv (2 ^ (y.toNat % 16)) := by
  rw [aluAsr, toNat_shiftAmount, BitVec.toInt_sshiftRight, Int.shiftRight_eq_div_pow,
    Int.fdiv_eq_ediv_of_nonneg _ (by positivity)]
  push_cast
  rfl

/-- Settles O39. -/
theorem asrFloorsSignedQuotient : Obligations.AsrFloorsSignedQuotient := aluForms_asr.twoAddress toInt_aluAsr

end Sys2Proof.Machine
end

section
/-!
SUPPORT. The dispatcher over any devices, a load after a store, and the canonical form of a memory (spec/20_memory.md
section 2, spec/43_load_store.md R173, log 1), and the obligations O26, O28 and O31.
-/

namespace Sys2Proof.Machine

/-! ### A load after a store (R173) -/

/-- A completed store leaves at its address its value, or at 0xFF00 what was there. -/
theorem exec_store_read {rd rs : RegNum} {m : Imm13} {s t : State} (hwf : s.ram.wf = true)
    (h : exec (.store rd rs m) s = .next t) :
    effectiveAddress s rs m ≠ 0xFFFF#16 ∧
      (effectiveAddress s rs m ≠ 0xFF00#16 → t.ram.read (effectiveAddress s rs m) = s.reg rd) ∧
      (effectiveAddress s rs m = 0xFF00#16 → t.ram.read (effectiveAddress s rs m) = s.ram.read 0xFF00#16) := by
  obtain ⟨hc, rfl⟩ | ⟨hc, hm, rfl⟩ := storeWord_next h
  · rw [hc]
    exact ⟨by decide, fun hne => absurd rfl hne, fun _ => rfl⟩
  · refine ⟨hm, fun _ => ?_, fun heq => absurd heq hc⟩
    rw [State.setRam_ram, Memory.read_write hwf, if_pos rfl]

/-- Settles O26. -/
theorem storeThenLoadReadsBack : Obligations.StoreThenLoadReadsBack := by
  intro ra rb rs rs' k k' s t v hwf hstore hram haddr
  obtain ⟨hmapped, hvalue, hkept⟩ := exec_store_read hwf hstore
  have hload := loadWord_mapped rb v hmapped
  rw [← haddr] at hload
  refine ⟨_, hload, fun hne => ?_, fun heq => ?_⟩
  · rw [State.setReg_reg_self, haddr, hram, hvalue hne]
  · rw [State.setReg_reg_self, haddr, hram, hkept heq]

/-! ### The dispatcher (R56, R58) -/

/-- The device does not answer the transaction: it is out of range, or it declines. -/
def Device.Passes {σ : Type} (st : σ) (a data : Word) (isWrite : Bool) (d : Device σ) : Prop :=
  ¬ (d.base.toNat ≤ a.toNat ∧ a.toNat - d.base.toNat < d.span) ∨ d.handler st a data isWrite = none

theorem transact_cons_of_passes {σ : Type} {st : σ} {a data : Word} {isWrite : Bool} {d : Device σ} (ds : List (Device σ))
    (h : d.Passes st a data isWrite) : transact (d :: ds) st a data isWrite = transact ds st a data isWrite := by
  rw [transact]
  obtain hrange | hdeclines := h
  · rw [if_neg (mt (d.inRange_iff a).1 hrange)]
  · rw [hdeclines]
    exact ite_self _

theorem transact_cons_of_accepts {σ : Type} {st : σ} {a data : Word} {isWrite : Bool} {d : Device σ} {r : σ × Word}
    (ds : List (Device σ)) (hrange : d.base.toNat ≤ a.toNat ∧ a.toNat - d.base.toNat < d.span)
    (h : d.handler st a data isWrite = some r) : transact (d :: ds) st a data isWrite = some r := by
  rw [transact, if_pos ((d.inRange_iff a).2 hrange), h]

/-- A device that does not pass a transaction answers it. -/
theorem Device.answers_of_not_passes {σ : Type} {st : σ} {a data : Word} {isWrite : Bool} {d : Device σ}
    (h : ¬ d.Passes st a data isWrite) :
    (d.base.toNat ≤ a.toNat ∧ a.toNat - d.base.toNat < d.span) ∧ ∃ r, d.handler st a data isWrite = some r := by
  obtain ⟨hrange, haccepts⟩ := not_or.1 h
  exact ⟨not_not.1 hrange, Option.ne_none_iff_exists'.1 haccepts⟩

theorem transact_append_of_passes {σ : Type} {st : σ} {a data : Word} {isWrite : Bool} {before : List (Device σ)}
    (rest : List (Device σ)) (h : ∀ e ∈ before, e.Passes st a data isWrite) :
    transact (before ++ rest) st a data isWrite = transact rest st a data isWrite := by
  induction before with
  | nil => rfl
  | cons d before ih =>
    obtain ⟨hd, hbefore⟩ := List.forall_mem_cons.1 h
    rw [List.cons_append, transact_cons_of_passes _ hd, ih hbefore]

/-- The transaction is unhandled exactly if every device passes it. -/
theorem transact_eq_none_iff {σ : Type} {st : σ} {a data : Word} {isWrite : Bool} {ds : List (Device σ)} :
    transact ds st a data isWrite = none ↔ ∀ e ∈ ds, e.Passes st a data isWrite := by
  induction ds with
  | nil => simp [transact]
  | cons d ds ih =>
    rw [List.forall_mem_cons]
    by_cases hd : d.Passes st a data isWrite
    · rw [transact_cons_of_passes ds hd, ih, and_iff_right hd]
    · obtain ⟨hrange, r, haccepts⟩ := Device.answers_of_not_passes hd
      simp [transact_cons_of_accepts ds hrange haccepts, hd]

theorem Device.configure_of_legal {σ : Type} (base : Word) {span : Nat}
    (handler : σ → Word → Word → Bool → Option (σ × Word)) (h : 1 ≤ span ∧ span ≤ 65536) :
    Device.configure base span handler = .ok ⟨base, span, handler, h⟩ := dif_pos h

theorem Device.configure_of_illegal {σ : Type} (base : Word) {span : Nat}
    (handler : σ → Word → Word → Bool → Option (σ × Word)) (h : ¬ (1 ≤ span ∧ span ≤ 65536)) :
    Device.configure base span handler = .error .spanOutOfRange := dif_neg h

/-- Settles O28: the devices before the first that answers pass the transaction on to it. -/
theorem firstAcceptingDeviceAnswers : Obligations.FirstAcceptingDeviceAnswers := by
  intro σ st a data isWrite
  refine ⟨fun before after d r hbefore hlow hhigh haccepts => ?first, fun ds => transact_eq_none_iff,
    fun base span handler => ⟨fun h => ?legal, fun h => ?illegal⟩⟩
  case first => rw [transact_append_of_passes _ hbefore, transact_cons_of_accepts after ⟨hlow, hhigh⟩ haccepts]
  case legal => exact ⟨_, Device.configure_of_legal base handler h, rfl, rfl, rfl⟩
  case illegal => exact Device.configure_of_illegal base handler (by omega)

/-! ### The canonical form of a memory (log 1) -/

/-- The first listed address reads its word. -/
theorem Memory.read_cons_self {k : Nat} (hk : k < 65536) (v : Word) (m : Memory) :
    Memory.read ((k, v) :: m) (BitVec.ofNat 16 k) = v := by
  rw [Memory.read_cons, if_pos (by rw [BitVec.toNat_ofNat, Nat.mod_eq_of_lt hk])]

/-- An address below the first listed one, or one of the empty memory, reads blank. -/
theorem Memory.read_ofNat_of_lt {k : Nat} (hk : k < 65536) {m : Memory} (h : ∀ c ∈ m, k < c.1) :
    m.read (BitVec.ofNat 16 k) = Config.blankWord :=
  Memory.read_of_lt (by rwa [BitVec.toNat_ofNat, Nat.mod_eq_of_lt hk])

/-- A canonical memory that lists a word reads other than one that lists nothing up to its address. -/
theorem Memory.not_reads_alike {k : Nat} {v : Word} {m n : Memory} (hm : Memory.wf ((k, v) :: m) = true)
    (hn : ∀ c ∈ n, k < c.1) : ¬ ∀ a : Word, Memory.read ((k, v) :: m) a = n.read a := by
  intro h
  obtain ⟨hk, hv, -, -⟩ := Memory.wf_cons.1 hm
  have hread := h (BitVec.ofNat 16 k)
  rw [Memory.read_cons_self hk, Memory.read_ofNat_of_lt hk hn] at hread
  exact hv hread

/-- Behind equal first cells, the rests read alike: at the first address both are blank. -/
theorem Memory.tails_read_alike {k : Nat} {v : Word} {m n : Memory} (hm : ∀ c ∈ m, k < c.1) (hn : ∀ c ∈ n, k < c.1)
    (h : ∀ a : Word, Memory.read ((k, v) :: m) a = Memory.read ((k, v) :: n) a) (a : Word) : m.read a = n.read a := by
  by_cases ha : k = a.toNat
  · rw [ha] at hm hn
    rw [Memory.read_of_lt hm, Memory.read_of_lt hn]
  · simpa [Memory.read_cons, ha] using h a

/-- Settles O31, by induction on one memory: first the least addresses agree, then their words, then the rests. -/
theorem canonicalMemoriesThatReadAlikeAreEqual : Obligations.CanonicalMemoriesThatReadAlikeAreEqual := by
  intro m
  induction m with
  | nil =>
    rintro (_ | ⟨⟨l, u⟩, n⟩) - hn h
    · rfl
    · exact absurd (fun a => (h a).symm) (Memory.not_reads_alike hn (by simp))
  | cons c m ih =>
    obtain ⟨k, v⟩ := c
    rintro (_ | ⟨⟨l, u⟩, n⟩) hm hn h
    · exact absurd h (Memory.not_reads_alike hm (by simp))
    obtain ⟨hk, -, hmlt, hmwf⟩ := Memory.wf_cons.1 hm
    obtain ⟨hl, -, hnlt, hnwf⟩ := Memory.wf_cons.1 hn
    rcases Nat.lt_trichotomy k l with hlt | rfl | hgt
    · refine absurd h (Memory.not_reads_alike hm (List.forall_mem_cons.2 ⟨hlt, fun c hc => ?_⟩))
      exact Nat.lt_trans hlt (hnlt c hc)
    · have hword : v = u := by simpa [Memory.read_cons_self hk] using h (BitVec.ofNat 16 k)
      subst hword
      rw [ih n hmwf hnwf (Memory.tails_read_alike hmlt hnlt h)]
    · refine absurd (fun a => (h a).symm) (Memory.not_reads_alike hn (List.forall_mem_cons.2 ⟨hgt, fun c hc => ?_⟩))
      exact Nat.lt_trans hgt (hmlt c hc)

end Sys2Proof.Machine
end

section
/-!
SUPPORT. The fatal cases (spec/30_encoding.md R104, spec/60_exceptions.md R226, R229): when an instruction faults and that
it completes otherwise, and the obligations O47 and O48.
-/

namespace Sys2Proof.Machine

/-- Of the numbers of IMM, LOAD and STORE, the RR forms are the three undefined ones (R104). -/
theorem exec_of_undefinedForm {i : Instr} (s : State) (hformat : i.format = .rr)
    (hop : i.opcode = 9#5 ∨ i.opcode = 12#5 ∨ i.opcode = 13#5) : exec i s = .fault (.undefinedForm i.opcode s.pc) := by
  cases i
  case immRr | loadRr | storeRr => rfl
  all_goals
    dsimp only [Instr.opcode, Instr.format, Instr.record] at hformat hop
    exact absurd (And.intro hformat hop) (by decide)

/-- Settles O47. -/
theorem undefinedFormsAreFatalWhenExecuted : Obligations.UndefinedFormsAreFatalWhenExecuted := by
  refine ⟨fun rd rs s => ⟨rfl, rfl, rfl⟩, fun s hs hformat hop => ?step⟩
  case step => exact step_of_fault (State.ended_of_running hs) (exec_of_undefinedForm s hformat hop)

/-- The fatal cases of an instruction, with the fault that each raises (R221, R223). -/
def FaultsWith (i : Instr) (s : State) (f : Fault) : Prop :=
  (i.opcode ∈ unknownOpcodes ∧ f = .unknownOpcode i.opcode s.pc) ∨
  (i.format = .rr ∧ (i.opcode = 9#5 ∨ i.opcode = 12#5 ∨ i.opcode = 13#5) ∧ f = .undefinedForm i.opcode s.pc) ∨
  (∃ (rd rs : RegNum) (m : Imm13), i = .load rd rs m ∧ effectiveAddress s rs m = 0xFFFF#16 ∧
    f = .busUnhandled 0xFFFF#16 false) ∨
  (∃ (rd rs : RegNum) (m : Imm13), i = .store rd rs m ∧ effectiveAddress s rs m = 0xFFFF#16 ∧
    f = .busUnhandled 0xFFFF#16 true)

theorem FaultsWith.exec_eq {i : Instr} {s : State} {f : Fault} (h : FaultsWith i s f) : exec i s = .fault f := by
  obtain ⟨hop, rfl⟩ | ⟨hformat, hop, rfl⟩ | ⟨rd, rs, m, rfl, hea, rfl⟩ | ⟨rd, rs, m, rfl, hea, rfl⟩ := h
  · exact exec_of_unknownOpcode s hop
  · exact exec_of_undefinedForm s hformat hop
  · rw [exec_load, hea, loadWord_unmapped]
  · rw [exec_store, hea, storeWord_unmapped]

theorem exec_load_completes (rd : RegNum) {rs : RegNum} {m : Imm13} {s : State}
    (h : effectiveAddress s rs m ≠ 0xFFFF#16) : ∃ t, exec (.load rd rs m) s = .next t :=
  ⟨_, (exec_load rd rs m s).trans (loadWord_mapped rd s h)⟩

theorem exec_store_completes (rd : RegNum) {rs : RegNum} {m : Imm13} {s : State}
    (h : effectiveAddress s rs m ≠ 0xFFFF#16) : ∃ t, exec (.store rd rs m) s = .next t := by
  rw [exec_store]
  by_cases hc : effectiveAddress s rs m = 0xFF00#16
  · rw [hc]
    exact ⟨_, storeWord_char _ s⟩
  · exact ⟨_, storeWord_ram _ s h hc⟩

/-- Every instruction outside the fatal cases completes. -/
theorem faultsWith_or_completes (i : Instr) (s : State) : (∃ f, FaultsWith i s f) ∨ ∃ t, exec i s = .next t := by
  cases i
  case undef1Rr | undef4Rr | undef5Rr | undef7Rr | undef11Rr | undef14Rr | undef15Rr | undef18Rr | undef19Rr |
      undef14Ls | undef15Ls | undef18Ri | undef19Ri | undef7Ri =>
    exact .inl ⟨_, .inl ⟨by dsimp only [Instr.opcode, Instr.record]; decide, rfl⟩⟩
  case immRr | loadRr | storeRr =>
    exact .inl ⟨_, .inr (.inl ⟨rfl, by dsimp only [Instr.opcode, Instr.record]; decide, rfl⟩)⟩
  case load rd rs m =>
    by_cases hea : effectiveAddress s rs m = 0xFFFF#16
    · exact .inl ⟨_, .inr (.inr (.inl ⟨rd, rs, m, rfl, hea, rfl⟩))⟩
    · exact .inr (exec_load_completes rd hea)
  case store rd rs m =>
    by_cases hea : effectiveAddress s rs m = 0xFFFF#16
    · exact .inl ⟨_, .inr (.inr (.inr ⟨rd, rs, m, rfl, hea, rfl⟩))⟩
    · exact .inr (exec_store_completes rd hea)
  all_goals exact .inr ⟨_, rfl⟩

theorem exec_fault_iff (i : Instr) (s : State) (f : Fault) : exec i s = .fault f ↔ FaultsWith i s f := by
  refine ⟨fun h => ?_, FaultsWith.exec_eq⟩
  obtain ⟨g, hg⟩ | ⟨t, ht⟩ := faultsWith_or_completes i s
  · have hfault := hg.exec_eq
    rw [h] at hfault
    cases hfault
    exact hg
  · rw [h] at ht
    cases ht

theorem exec_faults_or_completes (i : Instr) (s : State) : (∃ f, exec i s = .fault f) ∨ ∃ t, exec i s = .next t :=
  (faultsWith_or_completes i s).imp_left fun ⟨f, hf⟩ => ⟨f, hf.exec_eq⟩

/-- Settles O48. -/
theorem executionFaultsExactlyWhenFatal : Obligations.ExecutionFaultsExactlyWhenFatal :=
  fun i s => ⟨exec_fault_iff i s, exec_faults_or_completes i s⟩

end Sys2Proof.Machine
end

section
/-!
SUPPORT. The cycle counter and the output log are written and never read (spec/10_state.md R34, spec/60_exceptions.md R236):
a step commutes with a change of both, and the obligations O53 and O54.
-/

namespace Sys2Proof.Machine

/-- The same machine after `k` more executed instructions and `earlier` more output. -/
def State.withPast (s : State) (k : Nat) (earlier : List Byte) : State :=
  { s with cycle := s.cycle + k, out := earlier ++ s.out }

theorem State.emit_withPast (s : State) (k : Nat) (earlier bytes : List Byte) :
    (s.withPast k earlier).emit bytes = (s.emit bytes).withPast k earlier := by
  simp [State.withPast, State.emit]

theorem State.decayLatch_withPast (s : State) (k : Nat) (earlier : List Byte) :
    (s.withPast k earlier).decayLatch = s.decayLatch.withPast k earlier := by
  rw [State.decayLatch_eq, State.decayLatch_eq]
  rfl

theorem State.advancePc_withPast (s : State) (k : Nat) (earlier : List Byte) :
    (s.withPast k earlier).advancePc = s.advancePc.withPast k earlier := by
  rw [State.advancePc_eq, State.advancePc_eq]
  rfl

theorem State.countCycle_withPast (s : State) (k : Nat) (earlier : List Byte) :
    (s.withPast k earlier).countCycle = s.countCycle.withPast k earlier := by
  simp [State.withPast, State.countCycle, Nat.add_right_comm]

theorem State.finishStep_withPast (s : State) (k : Nat) (earlier : List Byte) :
    (s.withPast k earlier).finishStep = s.finishStep.withPast k earlier := by
  rw [State.finishStep, State.decayLatch_withPast, State.advancePc_withPast, State.countCycle_withPast, State.finishStep]

theorem loadWord_withPast {rd : RegNum} {ea : Word} {s t : State} (k : Nat) (earlier : List Byte)
    (h : loadWord rd ea s = .next t) : loadWord rd ea (s.withPast k earlier) = .next (t.withPast k earlier) := by
  obtain ⟨hea, rfl⟩ := loadWord_next h
  exact loadWord_mapped rd _ hea

/-- Output is appended behind the earlier output. -/
theorem storeWord_withPast {ea v : Word} {s t : State} (k : Nat) (earlier : List Byte) (h : storeWord ea v s = .next t) :
    storeWord ea v (s.withPast k earlier) = .next (t.withPast k earlier) := by
  obtain ⟨rfl, rfl⟩ | ⟨hc, hm, rfl⟩ := storeWord_next h
  · rw [storeWord_char, State.emit_withPast]
  · exact storeWord_ram v _ hm hc

theorem skipUnless_withPast (b : Bool) (s : State) (k : Nat) (earlier : List Byte) :
    skipUnless b (s.withPast k earlier) = (skipUnless b s).withPast k earlier := by
  cases b <;> rfl

theorem compare_withPast {b : Bool} {s t : State} (k : Nat) (earlier : List Byte)
    (h : (.next (skipUnless b s) : Result) = .next t) :
    (.next (skipUnless b (s.withPast k earlier)) : Result) = .next (t.withPast k earlier) := by
  cases h
  rw [skipUnless_withPast]

/-- Each meaning reads neither field, and writes at most the output. -/
theorem exec_withPast {i : Instr} {s t : State} (k : Nat) (earlier : List Byte) (h : exec i s = .next t) :
    exec i (s.withPast k earlier) = .next (t.withPast k earlier) := by
  cases i
  case load => exact loadWord_withPast k earlier h
  case store => exact storeWord_withPast k earlier h
  case ifEqRr | ifEqRi | ifNeRr | ifNeRi | ifLtRr | ifLtRi | ifGeRr | ifGeRi | ifUltRr | ifUltRi | ifUgeRr | ifUgeRi =>
    exact compare_withPast k earlier h
  case undef1Rr | undef4Rr | undef5Rr | undef7Rr | immRr | undef11Rr | loadRr | storeRr | undef14Rr | undef15Rr |
      undef18Rr | undef19Rr | undef14Ls | undef15Ls | undef18Ri | undef19Ri | undef7Ri =>
    cases h
  all_goals
    cases h
    rfl

theorem step_withPast {s t : State} (k : Nat) (earlier : List Byte) (h : step s = .next t) :
    step (s.withPast k earlier) = .next (t.withPast k earlier) := by
  obtain ⟨hended, rfl⟩ | ⟨hended, u, hexec, rfl⟩ := step_next h
  · exact step_ended hended
  · rw [← State.finishStep_withPast]
    exact step_of_exec hended (exec_withPast k earlier hexec)

/-- Settles O53. -/
theorem cycleCounterIsNeverRead : Obligations.CycleCounterIsNeverRead :=
  fun _ _ k h => step_withPast k [] h

/-- Settles O54. -/
theorem outputIsNeverReadBack : Obligations.OutputIsNeverReadBack :=
  fun _ _ earlier h => step_withPast 0 earlier h

end Sys2Proof.Machine
end

section
/-!
SUPPORT. The outcome of a run, reset and the launch (spec/40_step_and_operand.md section 1, spec/60_exceptions.md section 1,
spec/70_reset_and_hazards.md sections 1 and 2), and the obligations O56, O57, O59 and O60.
-/

namespace Sys2Proof.Machine

/-! ### The outcome and the last state (R121, R220) -/

/-- The outcome of a run, by the state in which it ended. -/
inductive Ending (t : State) : RunOutcome → Prop where
  | halted (hhalt : t.halt = true) : Ending t .halted
  | errored (hhalt : t.halt = false) (herror : t.error = true) : Ending t (.errored t.errorExitCode)
  | cycleLimit (hrunning : t.Running) : Ending t .cycleLimitReached
  | fatal {cause : Fault} (hrunning : t.Running) (hstep : step t = .fault cause) : Ending t (.fatal cause)

/-- A step of a running machine completes or faults; it is never refused. -/
theorem step_faults_or_completes {s : State} (hs : s.Running) : (∃ f, step s = .fault f) ∨ ∃ t, step s = .next t := by
  obtain ⟨f, hf⟩ | ⟨t, ht⟩ := exec_faults_or_completes s.fetch s
  · exact .inl ⟨f, step_of_fault (State.ended_of_running hs) hf⟩
  · exact .inr ⟨_, step_of_exec (State.ended_of_running hs) ht⟩

theorem run_ending_of_not_running {n : Nat} {s t : State} {o : RunOutcome} (hs : ¬ s.Running) (h : run n s = (o, t)) :
    Ending t o := by
  obtain hhalt | ⟨hhalt, herror⟩ | hrunning := s.engine_cases
  · rw [run_of_halt n hhalt] at h
    cases h
    exact .halted hhalt
  · rw [run_of_error n hhalt herror] at h
    cases h
    exact .errored hhalt herror
  · exact absurd hrunning hs

/-- Every run has an ending, by induction on the budget. -/
theorem run_ending {n : Nat} {s t : State} {o : RunOutcome} (h : run n s = (o, t)) : Ending t o := by
  induction n generalizing s with
  | zero =>
    by_cases hs : s.Running
    · rw [run_zero_of_running hs] at h
      cases h
      exact .cycleLimit hs
    · exact run_ending_of_not_running hs h
  | succ n ih =>
    by_cases hs : s.Running
    · obtain ⟨f, hstep⟩ | ⟨u, hstep⟩ := step_faults_or_completes hs
      · rw [run_succ_of_fault n hs hstep] at h
        cases h
        exact .fatal hs hstep
      · rw [run_succ_of_next n hs hstep] at h
        exact ih h
    · exact run_ending_of_not_running hs h

/-- The budget bounds the executed steps (R121), by induction on it. -/
theorem run_cycle_bounds (n : Nat) (s : State) : s.cycle ≤ (run n s).2.cycle ∧ (run n s).2.cycle ≤ s.cycle + n := by
  induction n generalizing s with
  | zero =>
    have hsame : (run 0 s).2 = s := by
      by_cases hs : s.Running
      · rw [run_zero_of_running hs]
      · exact run_snd_of_not_running 0 hs
    rw [hsame]
    exact ⟨le_rfl, le_rfl⟩
  | succ n ih =>
    by_cases hs : s.Running
    · obtain ⟨f, hstep⟩ | ⟨u, hstep⟩ := step_faults_or_completes hs
      · rw [run_succ_of_fault n hs hstep]
        exact ⟨le_rfl, Nat.le_add_right _ _⟩
      · obtain ⟨hlow, hhigh⟩ := ih u
        rw [step_cycle hs hstep] at hlow hhigh
        rw [run_succ_of_next n hs hstep]
        omega
    · rw [run_snd_of_not_running _ hs]
      exact ⟨le_rfl, Nat.le_add_right _ _⟩

/-- A spent budget was spent on one step for each unit. -/
theorem run_cycleLimit_cycle {n : Nat} {s t : State} (h : run n s = (.cycleLimitReached, t)) :
    t.cycle = s.cycle + n := by
  induction n generalizing s with
  | zero => rw [run_zero_cycleLimit h, Nat.add_zero]
  | succ n ih =>
    obtain ⟨u, hstep, hrest⟩ := run_succ_cycleLimit h
    rw [ih hrest, step_cycle (running_of_run_cycleLimit h) hstep]
    omega

theorem Ending.halted_iff {t : State} {o : RunOutcome} (h : Ending t o) : o = .halted ↔ t.halt = true := by
  cases h with
  | halted hhalt => exact iff_of_true rfl hhalt
  | errored hhalt herror => exact iff_of_false nofun (by simp [hhalt])
  | cycleLimit hrunning => exact iff_of_false nofun (by simp [hrunning.1])
  | fatal hrunning hstep => exact iff_of_false nofun (by simp [hrunning.1])

/-- Settles O56: each outcome by the ending that has it, and the cycle counts by the budget. -/
theorem outcomeDescribesTheLastState : Obligations.OutcomeDescribesTheLastState := by
  intro n s t o h
  have hending := run_ending h
  have hbounds := run_cycle_bounds n s
  rw [h] at hbounds
  refine ⟨hending.halted_iff, ?errored, ?cycleLimit, ?fatal, ?refused, hbounds⟩
  case errored =>
    rintro c rfl
    cases hending with
    | errored hhalt herror => exact ⟨hhalt, herror, rfl⟩
  case cycleLimit =>
    rintro rfl
    cases hending with
    | cycleLimit hrunning => exact ⟨hrunning, run_cycleLimit_cycle h⟩
  case fatal =>
    rintro f rfl
    cases hending with
    | fatal hrunning hstep => exact ⟨hrunning, hstep⟩
  case refused =>
    rintro r rfl
    cases hending

/-! ### Reset, pre-load and launch (R250 to R254) -/

theorem reset_reg (q : RegNum) : State.reset.reg q = 0x0000#16 := by
  simp [State.reg, State.reset, Config.resetGpr]

/-- Settles O57: program memory is blank too, and the blank word is a NOP. -/
theorem resetClearsTheMachine : Obligations.ResetClearsTheMachine :=
  ⟨reset_reg, rfl, rfl, rfl, rfl, rfl, rfl, fun _ => rfl, fun _ => decode_zero, rfl⟩

theorem boot_ram_read {programWords dataWords : List Word} {s : State} (h : boot programWords dataWords = .ok s)
    (a : Word) : s.ram.read a = dataWords.getD a.toNat 0x0000#16 := by
  obtain ⟨-, hd, rfl⟩ := boot_eq_ok_iff.1 h
  exact Memory.read_load_zero (m := []) rfl hd a

theorem boot_out {programWords dataWords : List Word} {s : State} (h : boot programWords dataWords = .ok s) :
    s.out = [] := by
  obtain ⟨-, -, rfl⟩ := boot_eq_ok_iff.1 h
  rfl

/-- Settles O59. -/
theorem dataPreloadFillsRam : Obligations.DataPreloadFillsRam :=
  fun _ _ _ h => ⟨boot_ram_read h, boot_out h⟩

/-- The two loads change the memories alone, and keep their canonical form. -/
theorem boot_boundary {programWords dataWords : List Word} {s : State} (h : boot programWords dataWords = .ok s) :
    s.Boundary := by
  obtain ⟨-, -, rfl⟩ := boot_eq_ok_iff.1 h
  obtain ⟨hskip, hexpire, hblank, hnibble, hsignals, hpmem, hram⟩ := resetIsAtAStepBoundary
  exact ⟨hskip, hexpire, hblank, hnibble, hsignals, Memory.load_wf hpmem _ _, Memory.load_wf hram _ _⟩

theorem boot_of_program_too_long {programWords : List Word} (dataWords : List Word) (h : 65536 < programWords.length) :
    boot programWords dataWords = .error .programTooLong := if_pos h

theorem boot_of_data_too_long {programWords dataWords : List Word} (hp : programWords.length ≤ 65536)
    (hd : 65536 < dataWords.length) : boot programWords dataWords = .error .dataTooLong := by
  rw [boot, if_neg (Nat.not_lt.2 hp), if_pos hd]

theorem launch_of_boot_ok {programWords dataWords : List Word} {s : State} (maxCycles : Nat) (trace : Bool)
    (h : boot programWords dataWords = .ok s) :
    launch maxCycles programWords dataWords trace = .ok (run maxCycles s) := by
  rw [launch, h]

theorem launch_of_boot_error {programWords dataWords : List Word} {reason : LaunchRefusal} (maxCycles : Nat)
    (trace : Bool) (h : boot programWords dataWords = .error reason) :
    launch maxCycles programWords dataWords trace = .error reason := by
  rw [launch, h]

/-- Settles O60: a launch is refused as its boot is. -/
theorem launchRefusesOversizedInputs : Obligations.LaunchRefusesOversizedInputs := by
  intro maxCycles programWords dataWords trace
  refine ⟨fun hp => ?program, fun hp hd => ?data, fun hp hd => ?fits⟩
  case program => exact launch_of_boot_error maxCycles trace (boot_of_program_too_long dataWords hp)
  case data => exact launch_of_boot_error maxCycles trace (boot_of_data_too_long hp hd)
  case fits =>
    have hboot := boot_eq_ok_iff.2 ⟨hp, hd, rfl⟩
    exact ⟨_, hboot, boot_boundary hboot, launch_of_boot_ok maxCycles trace hboot⟩

end Sys2Proof.Machine
end
